-- ==== Sys2Proof/Word.lean ====
section
/-! DEFINITION. The word types of JPG-Raster CORE: the widths the spec gives its registers and message fields
(spec/00_scope.md R8, R9; spec/10_state.md R21 to R40). -/

namespace Sys2Proof

/-- One byte: a symbol, a byte of the entropy-coded stream, an 8-bit message field. -/
abbrev Byte := BitVec 8

/-- A 16-bit register or message field: dimensions (R92), quantization entries (R34), message coefficients (R96). -/
abbrev Half := BitVec 16

/-- A 32-bit register: `COEF`, `PRED` (R21, R23), `EXPECTED`, `COUNT` (R26). -/
abbrev Word := BitVec 32

/-- A channel number: 0 = Y, 1 = Cb, 2 = Cr (R8). -/
abbrev Chan := Fin 3

/-- A table slot number, `NQT = NHT = 4` (R9). -/
abbrev SlotId := Fin 4

/-- A 64-entry block of 32-bit coefficients in natural order (R21). -/
abbrev Block := Vector Word 64

/-- A 64-entry block of 16-bit message coefficients or quantization entries, natural order (R34, R96). -/
abbrev HalfBlock := Vector Half 64

end Sys2Proof
end

