-- ==== Sys2Proof/Config.lean ====
section
/-! DEFINITION. What an implementation fixes, and the free values: the one open parameter that changes behaviour
(spec/00_scope.md R9, `QUANT_ON_ENCODE`), the contents the spec leaves unspecified after a failed build
(spec/40_code_builder.md R136), and what reads as the contents of a table slot that does not exist (log entry 6). -/

namespace Sys2Proof

/-- The constants of spec/00_scope.md R9 that the spec fixes. -/
def Config.nqt : Nat := 4

/-- `NHT`, Huffman slots per class (R9). -/
def Config.nht : Nat := 4

/-- `MAXSYM`, the most symbols a Huffman table holds (R8). -/
def Config.maxSym : Nat := 256

/-- `MAXLEN`, the longest Huffman code (R8). -/
def Config.maxLen : Nat := 16

/-- The open parameter of R9 and D8: "OPEN: a model takes it as a Boolean argument". It stands in State as a constant no
step writes, so that every statement holds for both values. The capacities `OUTBUF_MAX`, `INBUF_MAX` and `CHAN_CAP` are
taken as unbounded (R61, R62, R77), so they are no parameter here. -/
structure Params where
  /-- `QUANT_ON_ENCODE`: the MCU step runs QUANTIZE before it encodes (R228). -/
  quantOnEncode : Bool
  deriving DecidableEq, Repr

/-- FREE VALUE (U2, R136: "its other fields become unspecified"): the `CNT` registers of a Huffman slot after its
`n`-th failed build. -/
opaque Config.freeCnt : Nat → Vector (BitVec 9) 16

/-- FREE VALUE (U2, R136): the `N` register of a Huffman slot after its failed build. -/
opaque Config.freeN : Nat → BitVec 9

/-- FREE VALUE (log entry 6): the `CNT` registers read for a Huffman slot that does not exist, by class (true = AC) and id. -/
opaque Config.absentCnt : Bool → Byte → Vector (BitVec 9) 16

/-- FREE VALUE (log entry 6): the `N` register read for a Huffman slot that does not exist. -/
opaque Config.absentN : Bool → Byte → BitVec 9

/-- FREE VALUE (log entry 6): the `SYM`, `LEN` and `CODE` entries read for a Huffman slot that does not exist. -/
opaque Config.absentEntries : Bool → Byte → List (Byte × BitVec 5 × BitVec 16)

/-- FREE VALUE (log entry 6): the `Q` entries read for a quantization slot that does not exist, by id. -/
opaque Config.absentQuant : Byte → HalfBlock

/-- FREE VALUE (U2, R136): the `SYM`, `LEN` and `CODE` entries of a Huffman slot after its failed build. -/
opaque Config.freeEntries : Nat → List (Byte × BitVec 5 × BitVec 16)

end Sys2Proof
end

