-- ==== Sys2Proof/Syntax.lean ====
section
/-! DEFINITION. The instruction set: the 35 operations of spec/opcode_table.json in its three layers (spec/00_scope.md R3):
seven input messages, five symbol formats of the entropy-coded stream, twenty-three internal operations. -/

namespace Sys2Proof

/-- The class of a Huffman table (R35, R101): DC = 0, AC = 1. -/
inductive HuffClass where
  | dc
  | ac
  deriving DecidableEq, Repr

/-- The seven kinds of input message (R91). -/
inductive MsgKind where
  | header
  | component
  | hufftable
  | quanttable
  | mcu
  | cdata
  | eos
  deriving DecidableEq, Repr

/-- One constructor per row of spec/opcode_table.json, in the table's order. -/
inductive Instr where
  /-- HEADER (R92, R224). `filename` and `frameType` are opaque strings. -/
  | header (height width : Half) (filename frameType : List Byte) (precision ss se sa : Byte)
  /-- COMPONENT (R93, R225): the fields in the message's order, AC table before DC table. -/
  | component (componentId hSamp vSamp tq ta td : Byte)
  /-- HUFFTABLE (R94, R226): composite `tableId` (R101), histogram `lengths[1..16]` of sixteen bytes (log entry 8), flat symbol
  list. -/
  | hufftable (tableId : Byte) (lengths : Vector Byte 16) (table : List Byte)
  /-- QUANTTABLE (R95, R141): `precision` false = 8-bit entries, true = 16-bit entries. -/
  | quanttable (tableId : Byte) (precision : Bool) (table : HalfBlock)
  /-- MCU (R96, R228): three blocks of 64 signed 16-bit coefficients in natural order. -/
  | mcu (y cb cr : HalfBlock)
  /-- CDATA (R97, R229): the entropy-coded segment; the field `length` is the length of `data`. -/
  | cdata (data : List Byte)
  /-- EOS (R98, R232). -/
  | eos
  /-- DCCAT (R105): the DC symbol, a category 0..16. -/
  | dccat (c : BitVec 5)
  /-- ACRS (R106): a run of `r` zeros and a coefficient of category `c`, 1..15. -/
  | acrs (r c : BitVec 4)
  /-- EOB (R107): end of block. -/
  | eob
  /-- ZRL (R108): sixteen zeros. -/
  | zrl
  /-- ACSKIP (R200): the symbols 0x10 .. 0xE0. -/
  | acskip (r : BitVec 4)
  /-- BUILDCODES (R130): counts wider than a message's bytes, as R140 gives them (log entry 8). -/
  | buildcodes (tableId : Byte) (lengths : Vector Half 16) (table : List Byte)
  /-- QTLOAD (R141). -/
  | qtload (tableId : Byte) (precision : Bool) (table : HalfBlock)
  /-- PUTBITS (R150): `value`, a non-negative integer; `length`, 0..32. -/
  | putbits (value length : Nat)
  /-- EMITBYTE (R151). -/
  | emitbyte (b : Byte)
  /-- FINALIZE (R152). -/
  | finalize
  /-- PRESTART (R154). -/
  | prestart
  /-- GETBIT (R156). -/
  | getbit
  /-- GETBITS (R159): `n`, 0..16. -/
  | getbits (n : Nat)
  /-- URESTART (R162). -/
  | urestart
  /-- CATEGORY (R170). -/
  | category (v : Int)
  /-- MAG (R172), with `c = CATEGORY(v)`. -/
  | mag (v : Int) (c : Nat)
  /-- HLOOKUP (R173) in the slot `HT[cls][t]`. -/
  | hlookup (cls : HuffClass) (t : SlotId) (sym : Byte)
  /-- EMITSYM (R175) with the slot `HT[cls][t]`. -/
  | emitsym (cls : HuffClass) (t : SlotId) (sym : Byte)
  /-- ENCODE_BLOCK (R176). -/
  | encodeBlock (ch : Chan)
  /-- HDECODE (R190) with the slot `HT[cls][t]`. -/
  | hdecode (cls : HuffClass) (t : SlotId)
  /-- UNMAG (R192): `0 <= c <= 16`, `0 <= b < 2^c`. -/
  | unmag (b c : Nat)
  /-- RECVVAL (R193): `c`, 0..16. -/
  | recvval (c : Nat)
  /-- DECODE_BLOCK (R195). -/
  | decodeBlock (ch : Chan)
  /-- DEQUANTIZE (R210). -/
  | dequantize
  /-- QUANTIZE (R211). -/
  | quantize
  /-- PRECHECK (R227); `forCdata` says which message invokes it: CDATA (true) or MCU (false). -/
  | precheck (forCdata : Bool)
  /-- COMPLETE_ENC (R230). -/
  | completeEnc
  /-- COMPLETE_DEC (R231). -/
  | completeDec
  deriving DecidableEq, Repr

/-- What an AC symbol byte stands for (R106, R107, R108, R113 (6)): the four cases of DECODE_BLOCK's loop (R198, R200). -/
inductive AcSymbol where
  | eob
  | zrl
  | skip (r : BitVec 4)
  | runSize (r c : BitVec 4)
  deriving DecidableEq, Repr

/-- The instruction an AC symbol stands for. -/
def AcSymbol.toInstr : AcSymbol → Instr
  | .eob => .eob
  | .zrl => .zrl
  | .skip r => .acskip r
  | .runSize r c => .acrs r c

/-- The three layers of the instruction set (R3, R117). -/
inductive Layer where
  | message
  | symbol
  | internal
  deriving DecidableEq, Repr

/-- The format of a row of spec/opcode_table.json (R117). -/
def Instr.layer : Instr → Layer
  | .header .. => .message
  | .component .. => .message
  | .hufftable .. => .message
  | .quanttable .. => .message
  | .mcu .. => .message
  | .cdata .. => .message
  | .eos => .message
  | .dccat .. => .symbol
  | .acrs .. => .symbol
  | .eob => .symbol
  | .zrl => .symbol
  | .acskip .. => .symbol
  | .buildcodes .. => .internal
  | .qtload .. => .internal
  | .putbits .. => .internal
  | .emitbyte .. => .internal
  | .finalize => .internal
  | .prestart => .internal
  | .getbit => .internal
  | .getbits .. => .internal
  | .urestart => .internal
  | .category .. => .internal
  | .mag .. => .internal
  | .hlookup .. => .internal
  | .emitsym .. => .internal
  | .encodeBlock .. => .internal
  | .hdecode .. => .internal
  | .unmag .. => .internal
  | .recvval .. => .internal
  | .decodeBlock .. => .internal
  | .dequantize => .internal
  | .quantize => .internal
  | .precheck .. => .internal
  | .completeEnc => .internal
  | .completeDec => .internal

end Sys2Proof
end

