-- ==== Sys2Proof/WellFormed.lean ====
section
/-! DEFINITION. Well-formed instructions: the operand ranges the spec gives each operation, where the types alone do not
give them (spec/30_encoding.md R95, R97, R105, R106, R113; the "Operands" line of each operation's rule). -/

namespace Sys2Proof

/-- The operand ranges of an instruction. A message's field VALUES are never restricted here (an illegal `tableId` is a
well-formed message that raises an error): only what the field's own width excludes. -/
def Instr.wellFormed : Instr → Bool
  | .header .. => true
  | .component .. => true
  | .hufftable .. => true
  -- R95: with precision 0 the entries are 8-bit
  | .quanttable _ precision table => precision || table.toList.all (fun q => decide (q.toNat < 256))
  | .mcu .. => true
  -- R97: `length` is a 32-bit field
  | .cdata data => decide (data.length < 2 ^ 32)
  | .eos => true
  -- R105, R113 (5): categories 0..16
  | .dccat c => decide (c.toNat ≤ 16)
  -- R106: category 1..15
  | .acrs _ c => decide (c ≠ 0)
  | .eob => true
  | .zrl => true
  -- R113 (6): high nibble 1..14
  | .acskip r => decide (r ≠ 0) && decide (r ≠ 15)
  | .buildcodes .. => true
  | .qtload _ precision table => precision || table.toList.all (fun q => decide (q.toNat < 256))
  -- R150: length 0..32
  | .putbits _ length => decide (length ≤ 32)
  | .emitbyte _ => true
  | .finalize => true
  | .prestart => true
  | .getbit => true
  -- R159: n 0..16
  | .getbits n => decide (n ≤ 16)
  | .urestart => true
  | .category _ => true
  -- R172: c = CATEGORY(v), that is 0 for v = 0 and else 2^(c-1) <= |v| < 2^c
  | .mag v c => decide (v.natAbs < 2 ^ c) && (decide (c = 0) || decide (2 ^ (c - 1) ≤ v.natAbs))
  | .hlookup .. => true
  | .emitsym .. => true
  | .encodeBlock _ => true
  | .hdecode .. => true
  -- R192: 0 <= c <= 16, 0 <= b < 2^c
  | .unmag b c => decide (c ≤ 16) && decide (b < 2 ^ c)
  -- R193: GETBITS(c), c 0..16
  | .recvval c => decide (c ≤ 16)
  | .decodeBlock _ => true
  | .dequantize => true
  | .quantize => true
  | .precheck _ => true
  | .completeEnc => true
  | .completeDec => true

end Sys2Proof
end

