-- ==== Sys2Proof/Decode.lean ====
section
/-! DEFINITION. Decoding and encoding (spec/30_encoding.md). Three format families (R90), no mode bit between them: message
records selected by an 8-bit kind tag (R91), and symbol bytes, whose reading depends on their place in a block (R105, R106):
the first item of a block is a DC symbol, every later one an AC symbol. Internal operations have no bit pattern (R117).

A record crosses the port as TYPED fields: the spec gives it no bytes ("field types, not wire bytes", R65). A record stands in
the model as an image in bytes under a layout of the model's own (DESIGN CHOICE, log entry 1): the kind byte, then the fields
in the order of R92 to R97, a 16- or 32-bit field with its more significant byte first, a byte string of open length as each
byte behind a 0x01 and a closing 0x00, `precision` (1 bit) as one byte 0x00 or 0x01. No rule sees these bytes. -/

namespace Sys2Proof

/-- Why a record image or a symbol byte is no instruction. -/
inductive DecodeReject where
  /-- no byte at all: not a record -/
  | empty
  /-- R99: the kind is none of 0x01..0x07 -/
  | unknownKind (kind : Byte)
  /-- a known kind whose image is no image of typed fields: the typed port delivers none -/
  | malformed (kind : Byte)
  /-- R113 (5): a DC symbol byte above 16 -/
  | badCategory (sym : Byte)
  deriving DecidableEq, Repr

/-- The kind tag of R91. -/
def MsgKind.tag : MsgKind → Byte
  | .header => 0x01
  | .component => 0x02
  | .hufftable => 0x03
  | .quanttable => 0x04
  | .mcu => 0x05
  | .cdata => 0x06
  | .eos => 0x07

/-! ## Reading fields of an image -/

/-- An 8-bit field. -/
def takeByte : List Byte → Option (Byte × List Byte)
  | [] => none
  | b :: rest => some (b, rest)

/-- A 16-bit field, more significant byte first (log entry 1). -/
def takeHalf : List Byte → Option (Half × List Byte)
  | hi :: lo :: rest => some (hi ++ lo, rest)
  | [_] => none
  | [] => none

/-- `n` 16-bit fields. -/
def takeHalves : Nat → List Byte → Option (List Half × List Byte)
  | 0, bs => some ([], bs)
  | n + 1, bs =>
    match takeHalf bs with
    | none => none
    | some (h, rest) =>
      match takeHalves n rest with
      | none => none
      | some (hs, rest') => some (h :: hs, rest')

/-- An array of `n` 16-bit fields. -/
def takeVector (n : Nat) (bs : List Byte) : Option (Vector Half n × List Byte) :=
  match takeHalves n bs with
  | none => none
  | some (hs, rest) =>
    if h : hs.length = n then some (⟨hs.toArray, by simpa using h⟩, rest) else none

/-- An array of `n` 8-bit fields. -/
def takeByteVector (n : Nat) (bs : List Byte) : Option (Vector Byte n × List Byte) :=
  if h : n ≤ bs.length then some (⟨(bs.take n).toArray, by simpa using h⟩, bs.drop n) else none

/-- A byte string of open length: each byte behind 0x01, closed by 0x00 (log entry 1). -/
def takeString : List Byte → Option (List Byte × List Byte)
  | [] => none
  | [f] => if f = 0 then some ([], []) else none
  | f :: b :: rest =>
    if f = 0 then some ([], b :: rest)
    else if f = 1 then
      match takeString rest with
      | none => none
      | some (bs, rest') => some (b :: bs, rest')
    else none

/-- A 1-bit field held in one byte. -/
def takeFlag : List Byte → Option (Bool × List Byte)
  | [] => none
  | b :: rest => if b = 0 then some (false, rest) else if b = 1 then some (true, rest) else none

/-- A 32-bit `length` and exactly that many bytes (R97). -/
def takeCounted (bs : List Byte) : Option (List Byte × List Byte) :=
  match takeHalf bs with
  | none => none
  | some (hi, bs1) =>
    match takeHalf bs1 with
    | none => none
    | some (lo, bs2) =>
      let n := hi.toNat * 2 ^ 16 + lo.toNat
      if n ≤ bs2.length then some (bs2.take n, bs2.drop n) else none

/-- HEADER's fields (R92). -/
def takeHeader (bs : List Byte) : Option (Instr × List Byte) := do
  let (height, bs) ← takeHalf bs
  let (width, bs) ← takeHalf bs
  let (filename, bs) ← takeString bs
  let (frameType, bs) ← takeString bs
  let (precision, bs) ← takeByte bs
  let (ss, bs) ← takeByte bs
  let (se, bs) ← takeByte bs
  let (sa, bs) ← takeByte bs
  pure (.header height width filename frameType precision ss se sa, bs)

/-- COMPONENT's fields (R93), AC table before DC table. -/
def takeComponent (bs : List Byte) : Option (Instr × List Byte) := do
  let (componentId, bs) ← takeByte bs
  let (hSamp, bs) ← takeByte bs
  let (vSamp, bs) ← takeByte bs
  let (tq, bs) ← takeByte bs
  let (ta, bs) ← takeByte bs
  let (td, bs) ← takeByte bs
  pure (.component componentId hSamp vSamp tq ta td, bs)

/-- HUFFTABLE's fields (R94). -/
def takeHufftable (bs : List Byte) : Option (Instr × List Byte) := do
  let (tableId, bs) ← takeByte bs
  let (lengths, bs) ← takeByteVector 16 bs
  let (table, bs) ← takeString bs
  pure (.hufftable tableId lengths table, bs)

/-- QUANTTABLE's fields (R95). -/
def takeQuanttable (bs : List Byte) : Option (Instr × List Byte) := do
  let (tableId, bs) ← takeByte bs
  let (precision, bs) ← takeFlag bs
  let (table, bs) ← takeVector 64 bs
  pure (.quanttable tableId precision table, bs)

/-- MCU's fields (R96). -/
def takeMcu (bs : List Byte) : Option (Instr × List Byte) := do
  let (y, bs) ← takeVector 64 bs
  let (cb, bs) ← takeVector 64 bs
  let (cr, bs) ← takeVector 64 bs
  pure (.mcu y cb cr, bs)

/-- CDATA's fields (R97). -/
def takeCdata (bs : List Byte) : Option (Instr × List Byte) := do
  let (data, bs) ← takeCounted bs
  pure (.cdata data, bs)

/-- The kind of R91, by its tag; none is an unknown kind (R99). -/
def kindOfTag (b : Byte) : Option MsgKind :=
  if b = 0x01 then some .header
  else if b = 0x02 then some .component
  else if b = 0x03 then some .hufftable
  else if b = 0x04 then some .quanttable
  else if b = 0x05 then some .mcu
  else if b = 0x06 then some .cdata
  else if b = 0x07 then some .eos
  else none

/-- The fields a kind has (R92 to R98). -/
def takeFields : MsgKind → List Byte → Option (Instr × List Byte)
  | .header, bs => takeHeader bs
  | .component, bs => takeComponent bs
  | .hufftable, bs => takeHufftable bs
  | .quanttable, bs => takeQuanttable bs
  | .mcu, bs => takeMcu bs
  | .cdata, bs => takeCdata bs
  | .eos, bs => some (.eos, bs)

/-- Reads one record from the front of `bs`, and what is left. Total on any bytes; rejects by name. -/
def decodeFront : List Byte → Except DecodeReject (Instr × List Byte)
  | [] => .error .empty
  | k :: bs =>
    match kindOfTag k with
    | none => .error (.unknownKind k)
    | some kind =>
      match takeFields kind bs with
      | none => .error (.malformed k)
      | some (i, rest) => if i.wellFormed then .ok (i, rest) else .error (.malformed k)

/-- Decodes one record, which its image must fill: the channel carries discrete records (R73). -/
def decodeRecord (img : List Byte) : Except DecodeReject Instr :=
  match decodeFront img with
  | .error e => .error e
  | .ok (i, []) => .ok i
  | .ok (_, _ :: _) =>
    match img with
    | [] => .error .empty
    | k :: _ => .error (.malformed k)

/-! ## Symbol bytes -/

/-- R105, R113 (5): a DC symbol byte is a category 0..16; above 16 it is illegal. -/
def dcCategory (b : Byte) : Option (BitVec 5) :=
  if b.toNat ≤ 16 then some (b.setWidth 5) else none

/-- R106: the run nibble `s[7:4]`. -/
def runNibble (b : Byte) : BitVec 4 := b.extractLsb' 4 4

/-- R106: the category nibble `s[3:0]`. -/
def catNibble (b : Byte) : BitVec 4 := b.extractLsb' 0 4

/-- R198 with R106, R107, R108, R200: what an AC symbol byte means. Every byte means something. -/
def acSymbol (b : Byte) : AcSymbol :=
  if b = 0x00 then .eob
  else if b = 0xF0 then .zrl
  else if catNibble b = 0 then .skip (runNibble b)
  else .runSize (runNibble b) (catNibble b)

/-- Decodes a symbol byte that stands first in a block. -/
def decodeDcSymbol (b : Byte) : Except DecodeReject Instr :=
  match dcCategory b with
  | none => .error (.badCategory b)
  | some c => .ok (.dccat c)

/-- Decodes a symbol byte that stands later in a block. -/
def decodeAcSymbol (b : Byte) : Instr := (acSymbol b).toInstr

/-! ## Encoding -/

/-- A 16-bit field, more significant byte first. -/
def putHalf (h : Half) : List Byte := [h.extractLsb' 8 8, h.extractLsb' 0 8]

/-- `n` 16-bit fields. -/
def putHalves : List Half → List Byte
  | [] => []
  | h :: hs => putHalf h ++ putHalves hs

/-- A byte string of open length. -/
def putString : List Byte → List Byte
  | [] => [0]
  | b :: bs => 1 :: b :: putString bs

/-- A 1-bit field in one byte. -/
def putFlag (f : Bool) : List Byte := if f then [1] else [0]

/-- A 32-bit `length` and the bytes (R97). -/
def putCounted (data : List Byte) : List Byte :=
  putHalf (BitVec.ofNat 16 (data.length / 2 ^ 16)) ++ putHalf (BitVec.ofNat 16 data.length) ++ data

/-- The symbol byte of a symbol (R105 to R108, R200); none for the other layers. -/
def symbolByte : Instr → Option Byte
  | .dccat c => some (c.setWidth 8)
  | .acrs r c => some (r ++ c)
  | .eob => some 0x00
  | .zrl => some 0xF0
  | .acskip r => some (r ++ 0#4)
  | .header .. => none
  | .component .. => none
  | .hufftable .. => none
  | .quanttable .. => none
  | .mcu .. => none
  | .cdata .. => none
  | .eos => none
  | .buildcodes .. => none
  | .qtload .. => none
  | .putbits .. => none
  | .emitbyte .. => none
  | .finalize => none
  | .prestart => none
  | .getbit => none
  | .getbits .. => none
  | .urestart => none
  | .category .. => none
  | .mag .. => none
  | .hlookup .. => none
  | .emitsym .. => none
  | .encodeBlock .. => none
  | .hdecode .. => none
  | .unmag .. => none
  | .recvval .. => none
  | .decodeBlock .. => none
  | .dequantize => none
  | .quantize => none
  | .precheck .. => none
  | .completeEnc => none
  | .completeDec => none

/-- The image of a message (R91 to R98); none for the other layers. -/
def encodeRecord : Instr → Option (List Byte)
  | .header height width filename frameType precision ss se sa =>
    some (MsgKind.header.tag :: (putHalf height ++ putHalf width ++ putString filename ++ putString frameType
      ++ [precision, ss, se, sa]))
  | .component componentId hSamp vSamp tq ta td =>
    some [MsgKind.component.tag, componentId, hSamp, vSamp, tq, ta, td]
  | .hufftable tableId lengths table =>
    some (MsgKind.hufftable.tag :: tableId :: (lengths.toList ++ putString table))
  | .quanttable tableId precision table =>
    some (MsgKind.quanttable.tag :: tableId :: (putFlag precision ++ putHalves table.toList))
  | .mcu y cb cr =>
    some (MsgKind.mcu.tag :: (putHalves y.toList ++ putHalves cb.toList ++ putHalves cr.toList))
  | .cdata data => some (MsgKind.cdata.tag :: putCounted data)
  | .eos => some [MsgKind.eos.tag]
  | .dccat .. => none
  | .acrs .. => none
  | .eob => none
  | .zrl => none
  | .acskip .. => none
  | .buildcodes .. => none
  | .qtload .. => none
  | .putbits .. => none
  | .emitbyte .. => none
  | .finalize => none
  | .prestart => none
  | .getbit => none
  | .getbits .. => none
  | .urestart => none
  | .category .. => none
  | .mag .. => none
  | .hlookup .. => none
  | .emitsym .. => none
  | .encodeBlock .. => none
  | .hdecode .. => none
  | .unmag .. => none
  | .recvval .. => none
  | .decodeBlock .. => none
  | .dequantize => none
  | .quantize => none
  | .precheck .. => none
  | .completeEnc => none
  | .completeDec => none

/-- The words of an instruction: a record's image, or a symbol's byte. An internal operation has no bit pattern (R117). -/
def encode (i : Instr) : Option (List Byte) :=
  match encodeRecord i with
  | some img => some img
  | none => (symbolByte i).map (fun b => [b])

/-- The bit pattern of a row of spec/opcode_table.json: (match, mask) on the kind tag or the symbol byte. -/
def Instr.pattern : Instr → Option (Byte × Byte)
  | .header .. => some (0x01, 0xFF)
  | .component .. => some (0x02, 0xFF)
  | .hufftable .. => some (0x03, 0xFF)
  | .quanttable .. => some (0x04, 0xFF)
  | .mcu .. => some (0x05, 0xFF)
  | .cdata .. => some (0x06, 0xFF)
  | .eos => some (0x07, 0xFF)
  | .dccat .. => some (0x00, 0xE0)
  | .acrs .. => some (0x00, 0x00)
  | .eob => some (0x00, 0xFF)
  | .zrl => some (0xF0, 0xFF)
  | .acskip .. => some (0x00, 0x0F)
  | .buildcodes .. => none
  | .qtload .. => none
  | .putbits .. => none
  | .emitbyte .. => none
  | .finalize => none
  | .prestart => none
  | .getbit => none
  | .getbits .. => none
  | .urestart => none
  | .category .. => none
  | .mag .. => none
  | .hlookup .. => none
  | .emitsym .. => none
  | .encodeBlock .. => none
  | .hdecode .. => none
  | .unmag .. => none
  | .recvval .. => none
  | .decodeBlock .. => none
  | .dequantize => none
  | .quantize => none
  | .precheck .. => none
  | .completeEnc => none
  | .completeDec => none

/-! ## Words as the opcode table numbers them -/

/-- The bytes of a table word, the first byte its bits 7..0. -/
def tableBytes (nbits w : Nat) : List Byte :=
  (List.range (nbits / 8)).map (fun i => BitVec.ofNat 8 (w >>> (8 * i)))

/-- The symbol a lone byte stands for in the opcode table, where a byte may match several rows: the row with the most fixed
bits (EOB and ZRL 8, ACSKIP 4, DCCAT 3, ACRS none), so a byte 0x01..0x0F is read as a DC symbol. The machine itself never
guesses: it knows which item of a block it is reading (log entry 2). -/
def tableSymbol (b : Byte) : Instr :=
  match acSymbol b with
  | .eob => .eob
  | .zrl => .zrl
  | .skip r => .acskip r
  | .runSize r c => if b.toNat ≤ 16 then .dccat (b.setWidth 5) else .acrs r c

/-- The instruction read from a table word with zeros above it: a message by its kind tag, otherwise a symbol byte. -/
def decodeTableWord (nbits w : Nat) : Option Instr :=
  match tableBytes nbits w with
  | [] => none
  | b :: bs =>
    match decodeFront (b :: bs ++ List.replicate 400 0) with
    | .ok (i, _) => some i
    | .error _ => if bs = [] then some (tableSymbol b) else none

end Sys2Proof
end

