-- ==== Sys2Proof/Machine/State.lean ====
section
/-! DEFINITION. The state of one CORE (spec/10_state.md), the two ports as lists (spec/20_memory.md R73), the events (R76),
the error causes (spec/60_exceptions.md R262), and the state after power-on reset (R44, R300). Plain data throughout.
INVENTORY.md lists every field with its rule and its reset value. -/

namespace Sys2Proof.Machine

open Sys2Proof

/-- `SC_STATE` (R25). -/
inductive ScState where
  | idle
  | scanActive
  | halted
  | exited
  deriving DecidableEq, Repr

/-- The four error kinds (R260). -/
inductive ErrKind where
  | malformedTable
  | encode
  | decode
  | protocol
  deriving DecidableEq, Repr

/-- The twenty-one error causes, one per row of R262's table, in its order. -/
inductive Cause where
  | badId
  | tooManySymbols
  | countMismatch
  | overSubscribed
  | noDcSymbol
  | noAcSymbol
  | noZrlSymbol
  | noEobSymbol
  | acCategoryTooLarge
  | quantDivZero
  | noCode
  | endOfData
  | markerHit
  | badCategory
  | indexOverflow
  | unknownKind
  | unexpectedInState
  | badQuantId
  | zeroDimension
  | missingSetup
  | tooManyComponents
  deriving DecidableEq, Repr

/-- The event records of the output port (R76). A LOG's `code` and `sub` (R261, R262) are functions of its `cause`; its
`ch` is none where R263 says 3. -/
inductive Event where
  | scanbuf (bytes : List Byte) (height width : Half) (filename frameType : List Byte) (precision ss se sa : Byte)
  | blocks (index : Word) (y cb cr : Block) (corrupt : Vector Bool 3)
  | scandone (count : Word)
  | log (cause : Cause) (ch : Option Chan) (index : Word) (aux : Byte)
  | shutdown (kind : ErrKind)
  | eos
  deriving DecidableEq, Repr

/-- The header registers (R30, R31). -/
structure HeaderRegs where
  /-- `HDR_VALID` -/
  valid : Bool
  height : Half
  width : Half
  filename : List Byte
  frameType : List Byte
  precision : Byte
  ss : Byte
  se : Byte
  sa : Byte
  deriving DecidableEq, Repr

/-- A component slot `COMP[s]` (R32). -/
structure CompSlot where
  id : Byte
  h : Byte
  v : Byte
  tq : Byte
  ta : Byte
  td : Byte
  deriving DecidableEq, Repr

/-- A quantization slot `QT[t]` (R34). -/
structure QuantSlot where
  valid : Bool
  /-- `PREC`: false = 8-bit, true = 16-bit -/
  prec : Bool
  q : HalfBlock
  deriving DecidableEq, Repr

/-- One entry `SYM[j]`, `LEN[j]`, `CODE[j]` of a Huffman slot (R35). -/
structure HuffEntry where
  sym : Byte
  len : BitVec 5
  code : BitVec 16
  deriving DecidableEq, Repr

/-- A Huffman slot `HT[cls][t]` (R35). `cnt[l - 1]` is `CNT[l]`; entry `j` is `entries[j]` (R36). -/
structure HuffSlot where
  valid : Bool
  cnt : Vector (BitVec 9) 16
  n : BitVec 9
  entries : List HuffEntry
  deriving DecidableEq, Repr

/-- The Packer state (R39). `OLEN` is the length of `obuf`. -/
structure Packer where
  /-- `OBUF`, index 0 first -/
  obuf : List Byte
  /-- `CUR` -/
  cur : Byte
  /-- `NBITS` -/
  nbits : Fin 8
  deriving DecidableEq, Repr

/-- The Unpacker state (R29, R40). `ILEN` is the length of `ibuf`. -/
structure Unpacker where
  /-- `IBUF`, index 0 first -/
  ibuf : List Byte
  /-- `IPOS` -/
  ipos : Nat
  /-- `IBIT` -/
  ibit : Fin 8
  /-- `EOSEG` -/
  eoseg : Bool
  /-- `MARKER` -/
  marker : Byte
  deriving DecidableEq, Repr

/-- What an operation of R3 (b) returned to its caller, when it runs on its own (log entry 3). -/
inductive Res where
  | none
  | bit (b : Bool)
  | int (v : Int)
  | codeLen (code : BitVec 16) (len : BitVec 5)
  | symbol (s : Byte)
  | ok
  | fail
  | failCause (c : Cause)
  deriving DecidableEq, Repr

/-- The MODEL's own registers, not the spec's (log entry 3): the pseudocode locals `ch` and `k` (R24) and the value returned,
for a symbol or an internal operation run on its own. No message reads or writes them. -/
structure Latch where
  /-- the channel whose block a symbol belongs to -/
  ch : Chan
  /-- the zigzag position of the next coefficient -/
  k : Nat
  /-- what the last operation returned -/
  res : Res
  deriving DecidableEq, Repr

/-- The state of one CORE instance with its two ports. -/
structure State where
  /-- `QUANT_ON_ENCODE` (R9): a constant of the run, which no step writes -/
  params : Params
  /-- `SC_STATE` (R25) -/
  scState : ScState
  /-- `EXPECTED` (R26) -/
  expected : Word
  /-- `COUNT` (R26) -/
  count : Word
  /-- `PRED[ch]` (R23) -/
  pred : Vector Word 3
  /-- `COEF[ch][i]` (R21) -/
  coef : Vector Block 3
  /-- `STATUS` (R27) -/
  status : BitVec 6
  /-- `CORRUPT[ch]` (R28) -/
  corrupt : Vector Bool 3
  /-- the header registers (R30, R31) -/
  hdr : HeaderRegs
  /-- `NCOMP` (R32) -/
  ncomp : Fin 4
  /-- `COMP[s]` (R32) -/
  comp : Vector CompSlot 3
  /-- `QT[t]` (R34) -/
  qt : Vector QuantSlot 4
  /-- `HT[DC][t]` (R35) -/
  htDc : Vector HuffSlot 4
  /-- `HT[AC][t]` (R35) -/
  htAc : Vector HuffSlot 4
  /-- the Bit Packer (R39) -/
  packer : Packer
  /-- the Bit Unpacker and `MARKER` (R29, R40) -/
  unp : Unpacker
  /-- the input port (R74): record images not yet taken, oldest first -/
  inp : List (List Byte)
  /-- the output port (R76): the events emitted, oldest first -/
  out : List Event
  /-- MODEL's own (log entry 4): an operation of R3 (b) or (c) to run next on its own; no step ever fills it -/
  issue : Option Instr
  /-- MODEL's own (log entry 3) -/
  latch : Latch
  /-- MODEL's own (log entry 5): how many free values have been drawn -/
  freeIx : Nat
  deriving DecidableEq, Repr

/-- Why the machine stops with a fault: never. Every operation is a total function over the state (R17), and every error of the
spec is an entry that ends in a next state (R270 to R272), Halted included (R234); so there is no constructor. -/
inductive Fault where
  deriving DecidableEq, Repr

/-- Why a step has no meaning. -/
inductive Refusal where
  /-- Raised by no arm of this model: an instruction of the opcode table without a meaning. Safe. -/
  | notModelled (mnemonic : String)
  /-- Raised by `step` on a record image that is no image of typed fields: the typed port of R73 delivers none. Safe
  (log entry 1). -/
  | malformedRecord
  deriving DecidableEq, Repr

/-- A block of 64 zeros. -/
def zeroBlock : Block := Vector.replicate 64 0

/-- A header register group never written (R30: `HDR_VALID` = 0; the rest DESIGN CHOICE 0, log entry 7). -/
def HeaderRegs.reset : HeaderRegs :=
  { valid := false, height := 0, width := 0, filename := [], frameType := [], precision := 0, ss := 0, se := 0, sa := 0 }

/-- A component slot never written (DESIGN CHOICE 0, log entry 7). -/
def CompSlot.reset : CompSlot := { id := 0, h := 0, v := 0, tq := 0, ta := 0, td := 0 }

/-- A quantization slot never written (R34: `VALID` = 0; the rest DESIGN CHOICE 0, log entry 7). -/
def QuantSlot.reset : QuantSlot := { valid := false, prec := false, q := Vector.replicate 64 0 }

/-- A Huffman slot never written (R35: `VALID` = 0; the rest DESIGN CHOICE 0, log entry 7). -/
def HuffSlot.reset : HuffSlot := { valid := false, cnt := Vector.replicate 16 0, n := 0, entries := [] }

/-- The Packer empty (R44). -/
def Packer.reset : Packer := { obuf := [], cur := 0, nbits := 0 }

/-- The Unpacker empty (R44). -/
def Unpacker.reset : Unpacker := { ibuf := [], ipos := 0, ibit := 0, eoseg := false, marker := 0 }

/-- The model's own registers before any use (DESIGN CHOICE, log entry 3). -/
def Latch.reset : Latch := { ch := 0, k := 1, res := .none }

/-- Power-on reset (R44, R300). `COEF` has no reset value in the spec (DESIGN CHOICE 0, log entry 7); the parameter stands at
its default (R9); nothing waits at either port. -/
def State.reset : State :=
  { params := { quantOnEncode := false }
    scState := .idle
    expected := 0
    count := 0
    pred := Vector.replicate 3 0
    coef := Vector.replicate 3 zeroBlock
    status := 0
    corrupt := Vector.replicate 3 false
    hdr := HeaderRegs.reset
    ncomp := 0
    comp := Vector.replicate 3 CompSlot.reset
    qt := Vector.replicate 4 QuantSlot.reset
    htDc := Vector.replicate 4 HuffSlot.reset
    htAc := Vector.replicate 4 HuffSlot.reset
    packer := Packer.reset
    unp := Unpacker.reset
    inp := []
    out := []
    issue := none
    latch := Latch.reset
    freeIx := 0 }

end Sys2Proof.Machine
end

