-- ==== Sys2Proof/Machine/Flags.lean ====
section
/-! DEFINITION. The flags: `STATUS` (R27), `CORRUPT` (R28), and which flag, code and class each error has (R260 to R262, R270). -/

namespace Sys2Proof.Machine

open Sys2Proof

/-- Bit 0 `MTE` of `STATUS` (R27). -/
def flagMte : BitVec 6 := 0b000001#6
/-- Bit 1 `ENC`. -/
def flagEnc : BitVec 6 := 0b000010#6
/-- Bit 2 `DEC`. -/
def flagDec : BitVec 6 := 0b000100#6
/-- Bit 3 `PV`. -/
def flagPv : BitVec 6 := 0b001000#6
/-- Bit 4 `MRK`. -/
def flagMrk : BitVec 6 := 0b010000#6
/-- Bit 5 `ABN`. -/
def flagAbn : BitVec 6 := 0b100000#6

/-- The binary code of `SC_STATE` (R25); nothing observes it. -/
def ScState.code : ScState → Nat
  | .idle => 0
  | .scanActive => 1
  | .halted => 2
  | .exited => 3

/-- The `STATUS` flag of an error kind (R261). -/
def ErrKind.flag : ErrKind → BitVec 6
  | .malformedTable => flagMte
  | .encode => flagEnc
  | .decode => flagDec
  | .protocol => flagPv

/-- The error code of a kind (R261). -/
def ErrKind.code : ErrKind → Nat
  | .malformedTable => 1
  | .encode => 2
  | .decode => 3
  | .protocol => 4

/-- The two classes (R260): MalformedTableError and ProtocolViolation are fatal. -/
def ErrKind.fatal : ErrKind → Bool
  | .malformedTable => true
  | .encode => false
  | .decode => false
  | .protocol => true

/-- The kind of a cause (R262). -/
def Cause.kind : Cause → ErrKind
  | .badId => .malformedTable
  | .tooManySymbols => .malformedTable
  | .countMismatch => .malformedTable
  | .overSubscribed => .malformedTable
  | .noDcSymbol => .encode
  | .noAcSymbol => .encode
  | .noZrlSymbol => .encode
  | .noEobSymbol => .encode
  | .acCategoryTooLarge => .encode
  | .quantDivZero => .encode
  | .noCode => .decode
  | .endOfData => .decode
  | .markerHit => .decode
  | .badCategory => .decode
  | .indexOverflow => .decode
  | .unknownKind => .protocol
  | .unexpectedInState => .protocol
  | .badQuantId => .protocol
  | .zeroDimension => .protocol
  | .missingSetup => .protocol
  | .tooManyComponents => .protocol

/-- The sub-code of a cause (R262). -/
def Cause.sub : Cause → Nat
  | .badId => 1
  | .tooManySymbols => 2
  | .countMismatch => 3
  | .overSubscribed => 4
  | .noDcSymbol => 1
  | .noAcSymbol => 2
  | .noZrlSymbol => 3
  | .noEobSymbol => 4
  | .acCategoryTooLarge => 5
  | .quantDivZero => 6
  | .noCode => 1
  | .endOfData => 2
  | .markerHit => 3
  | .badCategory => 4
  | .indexOverflow => 5
  | .unknownKind => 1
  | .unexpectedInState => 2
  | .badQuantId => 3
  | .zeroDimension => 4
  | .missingSetup => 5
  | .tooManyComponents => 6

/-- The kind tag of an event record (R100). -/
def Event.tag : Event → Byte
  | .scanbuf .. => 0x81
  | .blocks .. => 0x82
  | .scandone .. => 0x83
  | .log .. => 0x84
  | .shutdown .. => 0x85
  | .eos => 0x86

/-- A LOG's channel field as a number (R76: "0..2 or 3 = none"). -/
def logChannel : Option Chan → Nat
  | some ch => ch.val
  | none => 3

/-- Sets a flag of `STATUS`; a flag is never cleared but by power-on reset (R27). -/
def State.setFlag (f : BitVec 6) (s : State) : State := { s with status := s.status ||| f }

/-- Sets `CORRUPT[ch]` (R28). -/
def State.setCorrupt (ch : Chan) (s : State) : State := { s with corrupt := s.corrupt.set ch true }

/-- Clears `CORRUPT[0..2]`, at the start of each MCU (R28). -/
def State.clearCorrupt (s : State) : State := { s with corrupt := Vector.replicate 3 false }

end Sys2Proof.Machine
end

