-- ==== Sys2Proof/Machine/Operands.lean ====
section
/-! DEFINITION. Operand forms and the integer functions on them: `bitlen`, `cdiv8`, `rhaz` (spec/00_scope.md R12), the value
coding of the entropy coder (R109, R110, R170, R172, R192), the zigzag constant (R38), the composite `tableId` (R101), the
selection of table slots (R33, R63). -/

namespace Sys2Proof.Machine

open Sys2Proof

/-- `bitlen(n)` (R12): 0 for 0, otherwise the `c >= 1` with `2^(c-1) <= n < 2^c`. -/
def bitlen (n : Nat) : Nat := if n = 0 then 0 else Nat.log2 n + 1

/-- `cdiv8(n) = (n + 7) >> 3` (R12). -/
def cdiv8 (n : Nat) : Nat := (n + 7) / 8

/-- `rhaz(c, q)`, `c/q` rounded to nearest, half away from zero (R12, R213). -/
def rhaz (c : Int) (q : Nat) : Int := Int.sign c * ((2 * c.natAbs + q) / (2 * q) : Nat)

/-- CATEGORY (R170): the number of bits of the absolute value. -/
def categoryOf (v : Int) : Nat := bitlen v.natAbs

/-- MAG (R172): `v` when `v > 0`, `v + (1 << c) - 1` when `v <= 0`. -/
def magField (v : Int) (c : Nat) : Int := if 0 < v then v else v + (2 ^ c - 1)

/-- UNMAG (R192, R110): 0 for `c = 0`; otherwise `b` when `b >= 1 << (c-1)` and `b - ((1 << c) - 1)` below it. -/
def unmagField (b c : Nat) : Int :=
  if c = 0 then 0 else if 2 ^ (c - 1) ≤ b then (b : Int) else (b : Int) - (2 ^ c - 1)

/-- The zigzag constant `ZZ` (R38), zigzag position to natural index. -/
def zzTable : List (Fin 64) :=
  [0, 1, 8, 16, 9, 2, 3, 10] ++ [17, 24, 32, 25, 18, 11, 4, 5] ++ [12, 19, 26, 33, 40, 48, 41, 34]
    ++ [27, 20, 13, 6, 7, 14, 21, 28] ++ [35, 42, 49, 56, 57, 50, 43, 36] ++ [29, 22, 15, 23, 30, 37, 44, 51]
    ++ [58, 59, 52, 45, 38, 31, 39, 46] ++ [53, 60, 61, 54, 47, 55, 62, 63]

/-- `ZZ[k]` (R38). Positions beyond 63 do not exist; no rule asks for one (R199). -/
def zz (k : Nat) : Fin 64 := zzTable.getD k 0

/-- The inverse constant `ZI` (R38), natural index to zigzag position. -/
def ziTable : List (Fin 64) :=
  [0, 1, 5, 6, 14, 15, 27, 28] ++ [2, 4, 7, 13, 16, 26, 29, 42] ++ [3, 8, 12, 17, 25, 30, 41, 43]
    ++ [9, 11, 18, 24, 31, 40, 44, 53] ++ [10, 19, 23, 32, 39, 45, 52, 54] ++ [20, 22, 33, 38, 46, 51, 55, 60]
    ++ [21, 34, 37, 47, 50, 56, 59, 61] ++ [35, 36, 48, 49, 57, 58, 62, 63]

/-- `ZI[n]` (R38). -/
def zi (n : Nat) : Fin 64 := ziTable.getD n 0

/-- HUFFTABLE's `tableId` is legal (R101): `tableId[7:5] = 0` and `tableId[3:0] < NHT`. -/
def tableIdLegal (tableId : Byte) : Bool :=
  tableId.extractLsb' 5 3 = 0 && decide ((tableId.extractLsb' 0 4).toNat < Config.nht)

/-- The class bit `tableId[4]` (R101). -/
def tableIdClass (tableId : Byte) : HuffClass := if tableId.getLsbD 4 then .ac else .dc

/-- The slot number in `tableId[3:0]`, for a legal `tableId` (R101). -/
def tableIdSlot (tableId : Byte) : SlotId := Fin.ofNat 4 (tableId.extractLsb' 0 4).toNat

/-- The byte counts of a HUFFTABLE message as the counts of BUILDCODES (R94, R130). -/
def wideLengths (lengths : Vector Byte 16) : Vector Half 16 := Vector.ofFn (fun i => (lengths[i]).setWidth 16)

/-- The slot a table id of 8 bits selects, where it is below the number of slots. -/
def slotOf (t : Byte) : SlotId := Fin.ofNat 4 t.toNat

/-- The slot `HT[cls][t]` (R35). -/
def State.huff (s : State) (cls : HuffClass) (t : SlotId) : HuffSlot :=
  match cls with
  | .dc => s.htDc[t]
  | .ac => s.htAc[t]

/-- Replaces the slot `HT[cls][t]` whole (R137). -/
def State.setHuff (cls : HuffClass) (t : SlotId) (h : HuffSlot) (s : State) : State :=
  match cls with
  | .dc => { s with htDc := s.htDc.set t h }
  | .ac => { s with htAc := s.htAc.set t h }

/-- What reads as the Huffman slot of an id that names none: not valid, its fields free values (log entry 6). No message gets
there, since the pre-check comes first (R227); the operations stay total (R17). -/
def absentSlot (ac : Bool) (id : Byte) : HuffSlot :=
  { valid := false
    cnt := Config.absentCnt ac id
    n := Config.absentN ac id
    entries := (Config.absentEntries ac id).map (fun e => { sym := e.1, len := e.2.1, code := e.2.2 }) }

/-- `HT[cls][id]` for a table id as stored in a component slot (R33). -/
def State.huffById (s : State) (cls : HuffClass) (id : Byte) : HuffSlot :=
  if id.toNat < Config.nht then s.huff cls (slotOf id) else absentSlot (cls = .ac) id

/-- `HT[DC][COMP[ch].TD]` (R176, R195). -/
def State.dcTable (s : State) (ch : Chan) : HuffSlot := s.huffById .dc s.comp[ch].td

/-- `HT[AC][COMP[ch].TA]` (R176, R195). -/
def State.acTable (s : State) (ch : Chan) : HuffSlot := s.huffById .ac s.comp[ch].ta

/-- `QT[COMP[ch].TQ].Q` (R210, R211); a free value where there is no such slot (log entry 6). -/
def State.quantTable (s : State) (ch : Chan) : HalfBlock :=
  if s.comp[ch].tq.toNat < Config.nqt then s.qt[slotOf s.comp[ch].tq].q else Config.absentQuant s.comp[ch].tq

/-- The coefficients of a channel at zigzag positions 1 to 63, in that order (R178). -/
def Block.acTerms (b : Block) : List Word := (List.range 63).map (fun i => b[zz (i + 1)])

end Sys2Proof.Machine
end

