-- ==== Sys2Proof/Machine/Ops.lean ====
section
/-! DEFINITION. The named operations over registers and buffers: raising an error (R270 to R272), the Packer
(spec/41_bit_packer_unpacker.md R150 to R154), the Unpacker (R156 to R162), symbol lookup and symbol decoding (R173, R175,
R190, R193), code assignment (R131), and the acceptance table (R222). The meanings of the instructions call these. -/

namespace Sys2Proof.Machine

open Sys2Proof

/-! ## Events and errors -/

/-- `emit EVENT` (R13, R76): appends one record to the output port. -/
def State.emit (e : Event) (s : State) : State := { s with out := s.out ++ [e] }

/-- The fatal class (R272), after the entry of R270: SHUTDOWN, `STATUS.ABN` when a scan is open, Halted. -/
def State.shutDown (k : ErrKind) (s : State) : State :=
  let s1 := s.emit (.shutdown k)
  let s2 := if s1.scState = .scanActive then s1.setFlag flagAbn else s1
  { s2 with scState := .halted }

/-- `CORRUPT[ch]` of R270 (2): set for EncodeError and DecodeError, which name a channel. -/
def State.markCorrupt (k : ErrKind) (ch : Option Chan) (s : State) : State :=
  match k with
  | .malformedTable => s
  | .protocol => s
  | .encode =>
    match ch with
    | none => s
    | some c => s.setCorrupt c
  | .decode =>
    match ch with
    | none => s
    | some c => s.setCorrupt c

/-- `raise <Error>(ch, sub, aux)` (R270): the kind's `STATUS` flag, `CORRUPT[ch]`, the LOG event with `index = COUNT`, then by
class R271 (nothing more) or R272. Nothing is saved and nothing is vectored; the fatal class has no return (R273). -/
def State.raise (c : Cause) (ch : Option Chan) (aux : Byte) (s : State) : State :=
  let s1 := s.setFlag c.kind.flag
  let s2 := s1.markCorrupt c.kind ch
  let s3 := s2.emit (.log c ch s2.count aux)
  if c.kind.fatal then s3.shutDown c.kind else s3

/-! ## The Bit Packer -/

/-- EMITBYTE (R151): the byte, and a stuffed 0x00 after 0xFF. -/
def Packer.emitByte (b : Byte) (p : Packer) : Packer :=
  if b = 0xFF then { p with obuf := p.obuf ++ [b, 0x00] } else { p with obuf := p.obuf ++ [b] }

/-- One round of PUTBITS' loop (R150): the bit goes to bit `7 - NBITS` of `CUR`. -/
def Packer.putBit (b : Bool) (p : Packer) : Packer :=
  let cur := if b then p.cur ||| (1#8 <<< (7 - p.nbits.val)) else p.cur
  if p.nbits = 7 then { p.emitByte cur with cur := 0, nbits := 0 }
  else { p with cur := cur, nbits := p.nbits + 1 }

/-- PUTBITS (R150): bits `length-1 .. 0` of `value`, most significant first. -/
def Packer.putBits (value : Nat) : Nat → Packer → Packer
  | 0, p => p
  | n + 1, p => Packer.putBits value n (p.putBit (value.testBit n))

/-- FINALIZE (R152): pads the partial byte with 1 bits. -/
def Packer.finalize (p : Packer) : Packer :=
  if p.nbits = 0 then p
  else { p.emitByte (p.cur ||| BitVec.ofNat 8 (2 ^ (8 - p.nbits.val) - 1)) with cur := 0, nbits := 0 }

/-- PUTBITS on the machine's Packer. -/
def State.putBits (value length : Nat) (s : State) : State := { s with packer := s.packer.putBits value length }

/-- PRESTART (R154). -/
def State.packerRestart (s : State) : State := { s with packer := Packer.reset }

/-! ## The Bit Unpacker -/

/-- `MemRead(S:i, 1)` on a byte space (R13): callers test the index first (R62). -/
def memRead (buf : List Byte) (i : Nat) : Byte := buf.getD i 0

/-- What GETBIT finds: a bit, or a failure, with the Unpacker after it; `marker` says that it met a marker just now. -/
inductive BitRead where
  | bit (b : Bool) (u : Unpacker)
  | fail (marker : Bool) (u : Unpacker)
  deriving DecidableEq, Repr

/-- The last two lines of GETBIT (R156): delivers bit `7 - IBIT` of the byte `b` and advances, past a stuffed 0x00 too (R158). -/
def Unpacker.deliver (b : Byte) (u : Unpacker) : BitRead :=
  .bit (b.getLsbD (7 - u.ibit.val))
    (if u.ibit = 7 then { u with ibit := 0, ipos := u.ipos + (if b = 0xFF then 2 else 1) }
     else { u with ibit := u.ibit + 1 })

/-- GETBIT on the Unpacker (R156, R157, R158, R160). -/
def Unpacker.getBit (u : Unpacker) : BitRead :=
  if u.eoseg then .fail false u
  else if u.ibuf.length ≤ u.ipos then .fail false { u with eoseg := true }
  else
    let b := memRead u.ibuf u.ipos
    if u.ibit = 0 ∧ b = 0xFF then
      if u.ibuf.length ≤ u.ipos + 1 then .fail false { u with eoseg := true }
      else
        let n := memRead u.ibuf (u.ipos + 1)
        if n ≠ 0x00 then .fail true { u with marker := n, eoseg := true }
        else u.deliver b
    else u.deliver b

/-- GETBIT (R156): a bit, or none when it fails; a marker sets `STATUS.MRK`. -/
def State.getBit (s : State) : Option Bool × State :=
  match s.unp.getBit with
  | .bit b u => (some b, { s with unp := u })
  | .fail false u => (none, { s with unp := u })
  | .fail true u => (none, State.setFlag flagMrk { s with unp := u })

/-- The loop of GETBITS (R159), with the bits read so far in `v`. -/
def State.getBitsFrom (v : Nat) : Nat → State → Option Nat × State
  | 0, s => (some v, s)
  | n + 1, s =>
    match s.getBit with
    | (none, s1) => (none, s1)
    | (some b, s1) => State.getBitsFrom (2 * v + b.toNat) n s1

/-- GETBITS(`n`) (R159). -/
def State.getBits (n : Nat) (s : State) : Option Nat × State := State.getBitsFrom 0 n s

/-- URESTART (R162). `STATUS.MRK` is not cleared. -/
def State.unpackerRestart (s : State) : State := { s with unp := Unpacker.reset }

/-- The cause of a failed read (R190, R191): EndOfData when `MARKER` is 0, otherwise MarkerHit. -/
def State.bitCause (s : State) : Cause := if s.unp.marker = 0 then .endOfData else .markerHit

/-- The `aux` of a DecodeError of a failed symbol or value read (R263): the marker byte for MarkerHit, 0 otherwise. -/
def State.readAux (c : Cause) (s : State) : Byte := if c = .markerHit then s.unp.marker else 0

/-! ## Huffman tables -/

/-- HLOOKUP (R173): the first entry, in entry order, with the symbol. -/
def HuffSlot.lookup (h : HuffSlot) (sym : Byte) : Option HuffEntry := h.entries.find? (fun e => e.sym == sym)

/-- The membership test of HDECODE (R190): an entry of length `l` with code `cand`. -/
def HuffSlot.matching (h : HuffSlot) (l cand : Nat) : Option HuffEntry :=
  h.entries.find? (fun e => e.len.toNat == l && e.code.toNat == cand)

/-- EMITSYM (R175): the code of the symbol goes out; none, writing nothing, when the table lacks it. -/
def State.emitSym (h : HuffSlot) (sym : Byte) (s : State) : Option State :=
  match h.lookup sym with
  | none => none
  | some e => some (s.putBits e.code.toNat e.len.toNat)

/-- The loop of HDECODE (R190): `n` lengths left, `16 - n` bits read into `cand`. -/
def State.hdecodeFrom (h : HuffSlot) : Nat → Nat → State → Except Cause Byte × State
  | 0, _, s => (.error .noCode, s)
  | n + 1, cand, s =>
    match s.getBit with
    | (none, s1) => (.error s1.bitCause, s1)
    | (some b, s1) =>
      match h.matching (Config.maxLen - n) (2 * cand + b.toNat) with
      | some e => (.ok e.sym, s1)
      | none => State.hdecodeFrom h n (2 * cand + b.toNat) s1

/-- HDECODE (R190): a symbol, or the cause of the failure. -/
def State.hdecode (h : HuffSlot) (s : State) : Except Cause Byte × State := State.hdecodeFrom h Config.maxLen 0 s

/-- RECVVAL (R193). -/
def State.recvVal (c : Nat) (s : State) : Except Cause Int × State :=
  match s.getBits c with
  | (none, s1) => (.error s1.bitCause, s1)
  | (some b, s1) => (.ok (unmagField b c), s1)

/-- The entries of one length (R131): consecutive codes in list order. -/
def codesOfLength (l : Nat) : Nat → List Byte → List HuffEntry
  | _, [] => []
  | code, sym :: syms =>
    { sym := sym, len := BitVec.ofNat 5 l, code := BitVec.ofNat 16 code } :: codesOfLength l (code + 1) syms

/-- Code assignment (R131) from length `l` on, with the over-subscription check of R132: the entries, or the length that
fails. -/
def assignCodes : Nat → List Nat → List Byte → Nat → Except Nat (List HuffEntry)
  | _, [], _, _ => .ok []
  | l, cnt :: cnts, syms, code =>
    if 2 ^ l < code + cnt then .error l
    else
      match assignCodes (l + 1) cnts (syms.drop cnt) (2 * (code + cnt)) with
      | .error l' => .error l'
      | .ok es => .ok (codesOfLength l code (syms.take cnt) ++ es)

/-! ## The coefficient registers -/

/-- `COEF[ch][i] <- v`. -/
def State.setCoef (ch : Chan) (i : Fin 64) (v : Word) (s : State) : State :=
  { s with coef := s.coef.set ch (s.coef[ch].set i v) }

/-- Replaces the block of a channel. -/
def State.setBlock (ch : Chan) (b : Block) (s : State) : State := { s with coef := s.coef.set ch b }

/-- `PRED[ch] <- v`. -/
def State.setPred (ch : Chan) (v : Word) (s : State) : State := { s with pred := s.pred.set ch v }

/-! ## The model's own registers and free values -/

/-- Returns a value to the caller of an operation run on its own (log entry 3). -/
def State.answer (r : Res) (s : State) : State := { s with latch := { s.latch with res := r } }

/-- The slot a failed build leaves (R136): `VALID` 0, the other fields free values (log entry 5). -/
def spoiledSlot (n : Nat) : HuffSlot :=
  { valid := false
    cnt := Config.freeCnt n
    n := Config.freeN n
    entries := ((Config.freeEntries n).take Config.maxSym).map (fun e => { sym := e.1, len := e.2.1, code := e.2.2 }) }

/-! ## Acceptance of messages -/

/-- A cell of the acceptance table (R222). -/
inductive Verdict where
  | accept
  | violation
  | drop
  /-- R234: EOS in Halted -/
  | forwardEos
  deriving DecidableEq, Repr

/-- The acceptance table (R222); `started` says `COUNT` > 0. -/
def verdict (k : MsgKind) (st : ScState) (started : Bool) : Verdict :=
  match st with
  | .idle =>
    match k with
    | .header => .accept
    | .component => .violation
    | .hufftable => .accept
    | .quanttable => .accept
    | .mcu => .violation
    | .cdata => .violation
    | .eos => .accept
  | .scanActive =>
    match k with
    | .header => .accept
    | .component => if started then .violation else .accept
    | .hufftable => if started then .violation else .accept
    | .quanttable => if started then .violation else .accept
    | .mcu => .accept
    | .cdata => if started then .violation else .accept
    | .eos => .accept
  | .halted =>
    match k with
    | .header => .drop
    | .component => .drop
    | .hufftable => .drop
    | .quanttable => .drop
    | .mcu => .drop
    | .cdata => .drop
    | .eos => .forwardEos
  | .exited => .drop

/-- The verdict on a message in a state. -/
def State.verdict (s : State) (k : MsgKind) : Verdict := Machine.verdict k s.scState (s.count != 0)

/-- Takes a message (R220): by its verdict runs its rule, raises UnexpectedInState with the kind byte as `aux` (R233, R263),
drops it, or, for EOS in Halted, forwards EOS (R234). -/
def State.onMessage (k : MsgKind) (act : State → State) (s : State) : State :=
  match s.verdict k with
  | .accept => act s
  | .violation => s.raise .unexpectedInState none k.tag
  | .drop => s
  | .forwardEos => s.emit .eos

/-- A record of unknown kind (R99, R222, R234): UnknownKind with the kind byte, or dropped in a terminal state. -/
def State.onUnknownKind (kind : Byte) (s : State) : State :=
  match s.scState with
  | .idle => s.raise .unknownKind none kind
  | .scanActive => s.raise .unknownKind none kind
  | .halted => s
  | .exited => s

end Sys2Proof.Machine
end

