-- ==== Sys2Proof/Machine/BitPacker.lean ====
section
/-! DEFINITION. The Bit Packer's operations run on their own (spec/41_bit_packer_unpacker.md section 1): PUTBITS, EMITBYTE,
FINALIZE, PRESTART. -/

namespace Sys2Proof.Machine

open Sys2Proof

/-- PUTBITS (R150). -/
def execPutbits (value length : Nat) (s : State) : Host.Outcome State Fault Refusal :=
  .next (s.putBits value length)

/-- EMITBYTE (R151). -/
def execEmitbyte (b : Byte) (s : State) : Host.Outcome State Fault Refusal :=
  .next { s with packer := s.packer.emitByte b }

/-- FINALIZE (R152). -/
def execFinalize (s : State) : Host.Outcome State Fault Refusal :=
  .next { s with packer := s.packer.finalize }

/-- PRESTART (R154). -/
def execPrestart (s : State) : Host.Outcome State Fault Refusal :=
  .next s.packerRestart

end Sys2Proof.Machine
end

