-- ==== Sys2Proof/Machine/BitUnpacker.lean ====
section
/-! DEFINITION. The Bit Unpacker's operations run on their own (spec/41_bit_packer_unpacker.md section 2): GETBIT, GETBITS,
URESTART. What they return stands in the model's result register (log entry 3). -/

namespace Sys2Proof.Machine

open Sys2Proof

/-- GETBIT (R156). -/
def execGetbit (s : State) : Host.Outcome State Fault Refusal :=
  match s.getBit with
  | (some b, s1) => .next (s1.answer (.bit b))
  | (none, s1) => .next (s1.answer .fail)

/-- GETBITS (R159). -/
def execGetbits (n : Nat) (s : State) : Host.Outcome State Fault Refusal :=
  match s.getBits n with
  | (some v, s1) => .next (s1.answer (.int v))
  | (none, s1) => .next (s1.answer .fail)

/-- URESTART (R162). -/
def execUrestart (s : State) : Host.Outcome State Fault Refusal :=
  .next s.unpackerRestart

end Sys2Proof.Machine
end

