-- ==== Sys2Proof/Machine/Encoder.lean ====
section
/-! DEFINITION. The MCU Entropy Encoder (spec/42_entropy_encoder.md): CATEGORY, MAG, HLOOKUP, EMITSYM, ENCODE_BLOCK. -/

namespace Sys2Proof.Machine

open Sys2Proof

/-- The ZRL loop (R178, R179) for `n` symbols 0xF0, `n` the number of times the run exceeds 15 while 16 is taken from it;
false when the table lacks the symbol. -/
def State.emitZrls (h : HuffSlot) : Nat → State → Bool × State
  | 0, s => (true, s)
  | n + 1, s =>
    match s.emitSym h 0xF0 with
    | none => (false, s)
    | some s1 => State.emitZrls h n s1

/-- The symbol byte `(run << 4) | c` of R180. -/
def runSizeByte (run c : Nat) : Byte := BitVec.ofNat 4 run ++ BitVec.ofNat 4 c

/-- The AC loop (R178 to R181) on the coefficients still to code, in zigzag order, with the zero run so far: whether the block
succeeded, and the state after it. A failure raises its EncodeError and ends the block (R177). -/
def State.encodeAc (ch : Chan) (h : HuffSlot) : List Word → Nat → State → Bool × State
  | [], run, s =>
    if run = 0 then (true, s)
    else
      match s.emitSym h 0x00 with
      | none => (false, s.raise .noEobSymbol (some ch) 0)
      | some s1 => (true, s1)
  | v :: vs, run, s =>
    if v = 0 then State.encodeAc ch h vs (run + 1) s
    else
      match s.emitZrls h (run / 16) with
      | (false, s1) => (false, s1.raise .noZrlSymbol (some ch) 0)
      | (true, s1) =>
        let c := categoryOf v.toInt
        if 15 < c then (false, s1.raise .acCategoryTooLarge (some ch) 0)
        else
          let sym := runSizeByte (run % 16) c
          match s1.emitSym h sym with
          | none => (false, s1.raise .noAcSymbol (some ch) sym)
          | some s2 => State.encodeAc ch h vs 0 (s2.putBits (magField v.toInt c).toNat c)

/-- ENCODE_BLOCK (R176 to R181). The predictor is updated before the lookup, so it is updated even when that fails. -/
def State.encodeBlock (ch : Chan) (s : State) : Bool × State :=
  let dc := s.coef[ch][(0 : Fin 64)]
  let diff := dc.toInt - s.pred[ch].toInt
  let c := categoryOf diff
  let s1 := s.setPred ch dc
  match s1.emitSym (s.dcTable ch) (BitVec.ofNat 8 c) with
  | none => (false, s1.raise .noDcSymbol (some ch) (BitVec.ofNat 8 c))
  | some s2 => State.encodeAc ch (s.acTable ch) (Block.acTerms s.coef[ch]) 0 (s2.putBits (magField diff c).toNat c)

/-- CATEGORY (R170). -/
def execCategory (v : Int) (s : State) : Host.Outcome State Fault Refusal :=
  .next (s.answer (.int (categoryOf v)))

/-- MAG (R172). -/
def execMag (v : Int) (c : Nat) (s : State) : Host.Outcome State Fault Refusal :=
  .next (s.answer (.int (magField v c)))

/-- HLOOKUP (R173). -/
def execHlookup (cls : HuffClass) (t : SlotId) (sym : Byte) (s : State) : Host.Outcome State Fault Refusal :=
  match (s.huff cls t).lookup sym with
  | some e => .next (s.answer (.codeLen e.code e.len))
  | none => .next (s.answer .fail)

/-- EMITSYM (R175). -/
def execEmitsym (cls : HuffClass) (t : SlotId) (sym : Byte) (s : State) : Host.Outcome State Fault Refusal :=
  match s.emitSym (s.huff cls t) sym with
  | some s1 => .next (s1.answer .ok)
  | none => .next (s.answer .fail)

/-- ENCODE_BLOCK (R176) run on its own: "Returns success/failure per channel" (R182). -/
def execEncodeBlock (ch : Chan) (s : State) : Host.Outcome State Fault Refusal :=
  match s.encodeBlock ch with
  | (true, s1) => .next (s1.answer .ok)
  | (false, s1) => .next (s1.answer .fail)

end Sys2Proof.Machine
end

