-- ==== Sys2Proof/Machine/Decoder.lean ====
section
/-! DEFINITION. The MCU Entropy Decoder (spec/43_entropy_decoder.md): HDECODE, UNMAG, RECVVAL, DECODE_BLOCK, and the five symbol
formats it reads (spec/30_encoding.md R105 to R108, R200). -/

namespace Sys2Proof.Machine

open Sys2Proof

/-- Raises the DecodeError of a failed read (R191, R201). -/
def State.raiseRead (c : Cause) (ch : Chan) (s : State) : State := s.raise c (some ch) (s.readAux c)

/-- A DC item of category `c` after its code (R197): the difference is read and added to the predictor, which is stored as
predictor and as coefficient 0. -/
def State.dcItem (ch : Chan) (c : Nat) (s : State) : Bool × State :=
  match s.recvVal c with
  | (.error e, s1) => (false, s1.raiseRead e ch)
  | (.ok diff, s1) =>
    let p := s1.pred[ch] + BitVec.ofInt 32 diff
    (true, (s1.setPred ch p).setCoef ch 0 p)

/-- A run/size symbol `sym` with run `r` and category `c` after its code, at zigzag position `k` (R198, R199, R200): whether it
succeeded, the position after it, the state after it. -/
def State.runSizeItem (ch : Chan) (sym : Byte) (r c k : Nat) (s : State) : Bool × Nat × State :=
  if 63 < k + r then (false, k + r, s.raise .indexOverflow (some ch) sym)
  else
    match s.recvVal c with
    | (.error e, s1) => (false, k + r, s1.raiseRead e ch)
    | (.ok v, s1) => (true, k + r + 1, s1.setCoef ch (zz (k + r)) (BitVec.ofInt 32 v))

/-- An AC symbol byte after its code (R198): EOB, ZRL, or the general arm. -/
def State.acItem (ch : Chan) (sym : Byte) (k : Nat) (s : State) : Bool × Nat × State :=
  match acSymbol sym with
  | .eob => (true, 64, s)
  | .zrl => (true, k + 16, s)
  | .skip r => s.runSizeItem ch sym r.toNat 0 k
  | .runSize r c => s.runSizeItem ch sym r.toNat c.toNat k

/-- The AC loop (R198), from position `k`; `fuel` is a bound on the symbols left, 63 at the start (R321). -/
def State.decodeAc (ch : Chan) (h : HuffSlot) : Nat → Nat → State → Bool × State
  | 0, _, s => (true, s)
  | fuel + 1, k, s =>
    if 64 ≤ k then (true, s)
    else
      match s.hdecode h with
      | (.error e, s1) => (false, s1.raiseRead e ch)
      | (.ok sym, s1) =>
        match s1.acItem ch sym k with
        | (false, _, s2) => (false, s2)
        | (true, k', s2) => State.decodeAc ch h fuel k' s2

/-- DECODE_BLOCK (R195 to R199): clears the block, reads its DC item, then its AC items. -/
def State.decodeBlock (ch : Chan) (s : State) : Bool × State :=
  let s0 := s.setBlock ch zeroBlock
  match s0.hdecode (s.dcTable ch) with
  | (.error e, s1) => (false, s1.raiseRead e ch)
  | (.ok sym, s1) =>
    match dcCategory sym with
    | none => (false, s1.raise .badCategory (some ch) sym)
    | some c =>
      match s1.dcItem ch c.toNat with
      | (false, s2) => (false, s2)
      | (true, s2) => State.decodeAc ch (s.acTable ch) 63 1 s2

/-- HDECODE (R190). -/
def execHdecode (cls : HuffClass) (t : SlotId) (s : State) : Host.Outcome State Fault Refusal :=
  match s.hdecode (s.huff cls t) with
  | (.ok sym, s1) => .next (s1.answer (.symbol sym))
  | (.error c, s1) => .next (s1.answer (.failCause c))

/-- UNMAG (R192). -/
def execUnmag (b c : Nat) (s : State) : Host.Outcome State Fault Refusal :=
  .next (s.answer (.int (unmagField b c)))

/-- RECVVAL (R193). -/
def execRecvval (c : Nat) (s : State) : Host.Outcome State Fault Refusal :=
  match s.recvVal c with
  | (.ok v, s1) => .next (s1.answer (.int v))
  | (.error e, s1) => .next (s1.answer (.failCause e))

/-- DECODE_BLOCK (R195) run on its own. -/
def execDecodeBlock (ch : Chan) (s : State) : Host.Outcome State Fault Refusal :=
  match s.decodeBlock ch with
  | (true, s1) => .next (s1.answer .ok)
  | (false, s1) => .next (s1.answer .fail)

/-- Ends a symbol run on its own, with the next position in the model's register `k` (log entry 3). -/
def symbolEnd : Bool × Nat × State → State
  | (ok, k, s) => { s with latch := { s.latch with k := k, res := if ok then .ok else .fail } }

/-- DCCAT (R105, R197): the DC item of the block of channel `ch`; above 16 no category (R113 (5)). -/
def execDccat (c : BitVec 5) (s : State) : Host.Outcome State Fault Refusal :=
  if 16 < c.toNat then .next ((s.raise .badCategory (some s.latch.ch) (c.setWidth 8)).answer .fail)
  else
    match s.dcItem s.latch.ch c.toNat with
    | (ok, s1) => .next (symbolEnd (ok, if ok then 1 else s.latch.k, s1))

/-- ACRS (R106, R198). -/
def execAcrs (r c : BitVec 4) (s : State) : Host.Outcome State Fault Refusal :=
  .next (symbolEnd (s.runSizeItem s.latch.ch (r ++ c) r.toNat c.toNat s.latch.k))

/-- EOB (R107, R198): `k <- 64`. -/
def execEob (s : State) : Host.Outcome State Fault Refusal :=
  .next (symbolEnd (true, 64, s))

/-- ZRL (R108, R198): `k <- k + 16`. -/
def execZrl (s : State) : Host.Outcome State Fault Refusal :=
  .next (symbolEnd (true, s.latch.k + 16, s))

/-- ACSKIP (R200): skip `r` positions, read no bits, store 0, advance by one. -/
def execAcskip (r : BitVec 4) (s : State) : Host.Outcome State Fault Refusal :=
  .next (symbolEnd (s.runSizeItem s.latch.ch (r ++ 0#4) r.toNat 0 s.latch.k))

end Sys2Proof.Machine
end

