-- ==== Sys2Proof/Machine/Quantizer.lean ====
section
/-! DEFINITION. The Dequantizer and Quantizer (spec/44_quantizer.md): DEQUANTIZE and QUANTIZE. -/

namespace Sys2Proof.Machine

open Sys2Proof

/-- `COEF[ch][i] <- wrap_32(COEF[ch][i] * Q[i])` for all `i` (R210); the order is unobservable (R214). -/
def dequantBlock (b : Block) (q : HalfBlock) : Block := Vector.ofFn (fun i => b[i] * (q[i]).setWidth 32)

/-- `COEF[ch][i] <- rhaz(COEF[ch][i], Q[i])`, and 0 where `Q[i]` is 0 (R211, R212). -/
def quantBlock (b : Block) (q : HalfBlock) : Block :=
  Vector.ofFn (fun i => if q[i] = 0 then 0 else BitVec.ofInt 32 (rhaz (b[i]).toInt (q[i]).toNat))

/-- DEQUANTIZE on one channel (R210). -/
def State.dequantChannel (ch : Chan) (s : State) : State := s.setBlock ch (dequantBlock s.coef[ch] (s.quantTable ch))

/-- DEQUANTIZE (R210): the three channels. -/
def State.dequantize (s : State) : State := ((s.dequantChannel 0).dequantChannel 1).dequantChannel 2

/-- The EncodeErrors QuantDivZero of one channel (R212): one per natural index with a zero divisor, in index order. -/
def State.raiseDivZero (ch : Chan) (q : HalfBlock) : List (Fin 64) → State → State
  | [], s => s
  | i :: is, s =>
    State.raiseDivZero ch q is (if q[i] = 0 then s.raise .quantDivZero (some ch) (BitVec.ofNat 8 i.val) else s)

/-- QUANTIZE on one channel (R211). -/
def State.quantChannel (ch : Chan) (s : State) : State :=
  State.raiseDivZero ch (s.quantTable ch) (List.finRange 64) (s.setBlock ch (quantBlock s.coef[ch] (s.quantTable ch)))

/-- QUANTIZE (R211): the three channels. -/
def State.quantize (s : State) : State := ((s.quantChannel 0).quantChannel 1).quantChannel 2

/-- DEQUANTIZE (R210) run on its own. -/
def execDequantize (s : State) : Host.Outcome State Fault Refusal :=
  .next s.dequantize

/-- QUANTIZE (R211) run on its own. -/
def execQuantize (s : State) : Host.Outcome State Fault Refusal :=
  .next s.quantize

end Sys2Proof.Machine
end

