-- ==== Sys2Proof/Machine/Tables.lean ====
section
/-! DEFINITION. The table stores and the Canonical Code Builder (spec/40_code_builder.md): BUILDCODES and QTLOAD. -/

namespace Sys2Proof.Machine

open Sys2Proof

/-- `S` of R135: the sum of the histogram. -/
def lengthsSum (lengths : Vector Half 16) : Nat := (lengths.toList.map BitVec.toNat).sum

/-- The `aux` byte of a build failure (R263): the length for OverSubscribed, otherwise the message's `tableId`. -/
def buildAux (tableId : Byte) : Cause × Nat → Byte
  | (.overSubscribed, l) => BitVec.ofNat 8 l
  | _ => tableId

/-- The message checks in their order, and the code assignment (R135, R131): the entries, or the first failing cause (with
the length, for OverSubscribed). -/
def buildEntries (tableId : Byte) (lengths : Vector Half 16) (table : List Byte) :
    Except (Cause × Nat) (List HuffEntry) :=
  if tableIdLegal tableId = false then .error (.badId, 0)
  else if Config.maxSym < lengthsSum lengths then .error (.tooManySymbols, 0)
  else if table.length ≠ lengthsSum lengths then .error (.countMismatch, 0)
  else
    match assignCodes 1 (lengths.toList.map BitVec.toNat) table 0 with
    | .error l => .error (.overSubscribed, l)
    | .ok es => .ok es

/-- The slot a successful build writes (R137). -/
def builtSlot (lengths : Vector Half 16) (es : List HuffEntry) : HuffSlot :=
  { valid := true
    cnt := Vector.ofFn (fun i => (lengths[i]).setWidth 9)
    n := BitVec.ofNat 9 (lengthsSum lengths)
    entries := es }

/-- The error effect on the store (R136): with a legal `tableId` the addressed slot is invalidated. -/
def State.spoil (tableId : Byte) (s : State) : State :=
  if tableIdLegal tableId then
    { s.setHuff (tableIdClass tableId) (tableIdSlot tableId) (spoiledSlot s.freeIx) with freeIx := s.freeIx + 1 }
  else s

/-- BUILDCODES (R130 to R137). -/
def State.buildCodes (tableId : Byte) (lengths : Vector Half 16) (table : List Byte) (s : State) : State :=
  match buildEntries tableId lengths table with
  | .error (c, l) => (s.spoil tableId).raise c none (buildAux tableId (c, l))
  | .ok es => s.setHuff (tableIdClass tableId) (tableIdSlot tableId) (builtSlot lengths es)

/-- QTLOAD (R141): a `tableId` at or above `NQT` is a ProtocolViolation BadQuantId. -/
def State.qtLoad (tableId : Byte) (precision : Bool) (table : HalfBlock) (s : State) : State :=
  if Config.nqt ≤ tableId.toNat then s.raise .badQuantId none tableId
  else { s with qt := s.qt.set (slotOf tableId) { valid := true, prec := precision, q := table } }

/-- BUILDCODES (R130) run on its own. -/
def execBuildcodes (tableId : Byte) (lengths : Vector Half 16) (table : List Byte) (s : State) :
    Host.Outcome State Fault Refusal :=
  .next (s.buildCodes tableId lengths table)

/-- QTLOAD (R141) run on its own. -/
def execQtload (tableId : Byte) (precision : Bool) (table : HalfBlock) (s : State) :
    Host.Outcome State Fault Refusal :=
  .next (s.qtLoad tableId precision table)

end Sys2Proof.Machine
end

