-- ==== Sys2Proof/Machine/Scan.lean ====
section
/-! DEFINITION. The Scan Controller (spec/45_scan_controller.md): the seven input messages, PRECHECK, COMPLETE_ENC,
COMPLETE_DEC. -/

namespace Sys2Proof.Machine

open Sys2Proof

/-! ## HEADER and COMPONENT -/

/-- The registers HEADER writes (R224). -/
def State.openScan (height width : Half) (filename frameType : List Byte) (precision ss se sa : Byte) (s : State) : State :=
  let s1 := if s.scState = .scanActive then s.setFlag flagAbn else s
  let s2 := { s1 with
    hdr := { valid := true, height := height, width := width, filename := filename, frameType := frameType,
             precision := precision, ss := ss, se := se, sa := sa }
    pred := Vector.replicate 3 0 }
  let s3 := s2.packerRestart.unpackerRestart
  let s4 := { s3 with
    expected := BitVec.ofNat 32 (cdiv8 height.toNat * cdiv8 width.toNat)
    count := 0
    ncomp := 0 }
  { s4.clearCorrupt with scState := .scanActive }

/-- HEADER accepted (R223, R224). -/
def State.header (height width : Half) (filename frameType : List Byte) (precision ss se sa : Byte) (s : State) : State :=
  if height = 0 ∨ width = 0 then s.raise .zeroDimension none 0
  else s.openScan height width filename frameType precision ss se sa

/-- COMPONENT accepted (R225): the slot of the next channel in arrival order. -/
def State.component (componentId hSamp vSamp tq ta td : Byte) (s : State) : State :=
  if h : s.ncomp.val < 3 then
    { s with
      comp := s.comp.set s.ncomp.val { id := componentId, h := hSamp, v := vSamp, tq := tq, ta := ta, td := td } h
      ncomp := s.ncomp + 1 }
  else s.raise .tooManyComponents none componentId

/-! ## The pre-check -/

/-- The channel's Huffman table ids name slots that exist (R33, R227). -/
def State.huffIdsExist (s : State) (ch : Chan) : Bool :=
  decide (s.comp[ch].td.toNat < Config.nht) && decide (s.comp[ch].ta.toNat < Config.nht)

/-- The tables one channel needs are there (R227). -/
def State.channelReady (needQuant : Bool) (s : State) (ch : Chan) : Bool :=
  s.huffIdsExist ch && (s.dcTable ch).valid && (s.acTable ch).valid
    && (!needQuant || (decide (s.comp[ch].tq.toNat < Config.nqt) && s.qt[slotOf s.comp[ch].tq].valid))

/-- The `aux` of a failing pre-check (R227, R263): the first failing channel, 3 when fewer than three components are loaded;
none when the pre-check passes. -/
def State.precheckFailure (needQuant : Bool) (s : State) : Option Byte :=
  if s.ncomp ≠ 3 then some 3
  else if s.channelReady needQuant 0 = false then some 0
  else if s.channelReady needQuant 1 = false then some 1
  else if s.channelReady needQuant 2 = false then some 2
  else none

/-- Whether the pre-check of a message asks for quantization tables (R227): CDATA always, MCU with `QUANT_ON_ENCODE`. -/
def State.needsQuant (forCdata : Bool) (s : State) : Bool := forCdata || s.params.quantOnEncode

/-! ## Completion -/

/-- The hand-off event (R230). -/
def State.scanBuffer (s : State) : Event :=
  .scanbuf s.packer.obuf s.hdr.height s.hdr.width s.hdr.filename s.hdr.frameType s.hdr.precision s.hdr.ss s.hdr.se s.hdr.sa

/-- COMPLETE_ENC (R230). -/
def State.completeEnc (s : State) : State :=
  let s1 := { s with packer := s.packer.finalize }
  let s2 := (s1.emit s1.scanBuffer).packerRestart
  { s2 with scState := .idle }

/-- COMPLETE_DEC (R231). -/
def State.completeDec (s : State) : State := { s.emit (.scandone s.expected) with scState := .idle }

/-! ## MCU -/

/-- The coefficient registers an MCU message loads (R228): each message value sign-extended. -/
def extendBlock (b : HalfBlock) : Block := Vector.ofFn (fun i => (b[i]).signExtend 32)

/-- Counts one MCU (R26). -/
def State.countMcu (s : State) : State := { s with count := s.count + 1 }

/-- The three ENCODE_BLOCKs of an MCU in fixed order, whatever each returns (R228, R242). -/
def State.encodeMcu (s : State) : State := (State.encodeBlock 2 (State.encodeBlock 1 (State.encodeBlock 0 s).2).2).2

/-- The MCU step after its pre-check (R228). -/
def State.mcuBody (y cb cr : HalfBlock) (s : State) : State :=
  let s1 := { s.clearCorrupt with coef := #v[extendBlock y, extendBlock cb, extendBlock cr] }
  let s2 := if s1.params.quantOnEncode then s1.quantize else s1
  let s3 := s2.encodeMcu.countMcu
  if s3.count = s3.expected then s3.completeEnc else s3

/-- MCU accepted (R227, R228). -/
def State.mcu (y cb cr : HalfBlock) (s : State) : State :=
  match s.precheckFailure (s.needsQuant false) with
  | some aux => s.raise .missingSetup none aux
  | none => s.mcuBody y cb cr

/-! ## CDATA -/

/-- The event of a decoded MCU (R229). -/
def State.blocksEvent (s : State) : Event :=
  .blocks s.count s.coef[(0 : Chan)] s.coef[(1 : Chan)] s.coef[(2 : Chan)] s.corrupt

/-- One round of the CDATA loop (R229). -/
def State.decodeMcu (s : State) : State :=
  let s1 := (State.decodeBlock 2 (State.decodeBlock 1 (State.decodeBlock 0 s.clearCorrupt).2).2).2
  let s2 := s1.dequantize
  (s2.emit s2.blocksEvent).countMcu

/-- `n` rounds of the CDATA loop. -/
def State.decodeMcus : Nat → State → State
  | 0, s => s
  | n + 1, s => State.decodeMcus n s.decodeMcu

/-- The CDATA step after its pre-check (R229): the loop runs while `COUNT < EXPECTED`, each round counting one. -/
def State.cdataBody (data : List Byte) (s : State) : State :=
  let s1 := { s with unp := { s.unp with ibuf := data } }
  (State.decodeMcus (s1.expected.toNat - s1.count.toNat) s1).completeDec

/-- CDATA accepted (R227, R229). -/
def State.cdata (data : List Byte) (s : State) : State :=
  match s.precheckFailure (s.needsQuant true) with
  | some aux => s.raise .missingSetup none aux
  | none => s.cdataBody data

/-! ## EOS -/

/-- EOS accepted (R232, R235): an open scan is abandoned without hand-off. -/
def State.endOfStream (s : State) : State :=
  let s1 := if s.scState = .scanActive then (s.setFlag flagAbn).packerRestart.unpackerRestart else s
  { s1.emit .eos with scState := .exited }

/-! ## Meanings -/

/-- HEADER (R222 to R224). -/
def execHeader (height width : Half) (filename frameType : List Byte) (precision ss se sa : Byte) (s : State) :
    Host.Outcome State Fault Refusal :=
  .next (s.onMessage .header (State.header height width filename frameType precision ss se sa))

/-- COMPONENT (R222, R225). -/
def execComponent (componentId hSamp vSamp tq ta td : Byte) (s : State) : Host.Outcome State Fault Refusal :=
  .next (s.onMessage .component (State.component componentId hSamp vSamp tq ta td))

/-- HUFFTABLE (R222, R226): BUILDCODES on the message's fields. -/
def execHufftable (tableId : Byte) (lengths : Vector Byte 16) (table : List Byte) (s : State) :
    Host.Outcome State Fault Refusal :=
  .next (s.onMessage .hufftable (State.buildCodes tableId (wideLengths lengths) table))

/-- QUANTTABLE (R222, R226): QTLOAD. -/
def execQuanttable (tableId : Byte) (precision : Bool) (table : HalfBlock) (s : State) :
    Host.Outcome State Fault Refusal :=
  .next (s.onMessage .quanttable (State.qtLoad tableId precision table))

/-- MCU (R222, R227, R228). -/
def execMcu (y cb cr : HalfBlock) (s : State) : Host.Outcome State Fault Refusal :=
  .next (s.onMessage .mcu (State.mcu y cb cr))

/-- CDATA (R222, R227, R229). -/
def execCdata (data : List Byte) (s : State) : Host.Outcome State Fault Refusal :=
  .next (s.onMessage .cdata (State.cdata data))

/-- EOS (R222, R232, R234). -/
def execEos (s : State) : Host.Outcome State Fault Refusal :=
  .next (s.onMessage .eos State.endOfStream)

/-- PRECHECK (R227) run on its own: passes, or raises MissingSetup. -/
def execPrecheck (forCdata : Bool) (s : State) : Host.Outcome State Fault Refusal :=
  match s.precheckFailure (s.needsQuant forCdata) with
  | some aux => .next ((s.raise .missingSetup none aux).answer .fail)
  | none => .next (s.answer .ok)

/-- COMPLETE_ENC (R230) run on its own. -/
def execCompleteEnc (s : State) : Host.Outcome State Fault Refusal := .next s.completeEnc

/-- COMPLETE_DEC (R231) run on its own. -/
def execCompleteDec (s : State) : Host.Outcome State Fault Refusal := .next s.completeDec

end Sys2Proof.Machine
end

