-- ==== Sys2Proof/Machine/Dispatch.lean ====
section
/-! DEFINITION. exec: one arm per instruction, each a direct call of its meaning. -/

namespace Sys2Proof.Machine

open Sys2Proof

/-- What one instruction does. -/
def exec (i : Instr) (s : State) : Host.Outcome State Fault Refusal :=
  match i with
  | .header height width filename frameType precision ss se sa => Sys2Proof.Machine.execHeader height width filename frameType precision ss se sa s
  | .component componentId hSamp vSamp tq ta td => Sys2Proof.Machine.execComponent componentId hSamp vSamp tq ta td s
  | .hufftable tableId lengths table => Sys2Proof.Machine.execHufftable tableId lengths table s
  | .quanttable tableId precision table => Sys2Proof.Machine.execQuanttable tableId precision table s
  | .mcu y cb cr => Sys2Proof.Machine.execMcu y cb cr s
  | .cdata data => Sys2Proof.Machine.execCdata data s
  | .eos => Sys2Proof.Machine.execEos s
  | .dccat c => Sys2Proof.Machine.execDccat c s
  | .acrs r c => Sys2Proof.Machine.execAcrs r c s
  | .eob => Sys2Proof.Machine.execEob s
  | .zrl => Sys2Proof.Machine.execZrl s
  | .acskip r => Sys2Proof.Machine.execAcskip r s
  | .buildcodes tableId lengths table => Sys2Proof.Machine.execBuildcodes tableId lengths table s
  | .qtload tableId precision table => Sys2Proof.Machine.execQtload tableId precision table s
  | .putbits value length => Sys2Proof.Machine.execPutbits value length s
  | .emitbyte b => Sys2Proof.Machine.execEmitbyte b s
  | .finalize => Sys2Proof.Machine.execFinalize s
  | .prestart => Sys2Proof.Machine.execPrestart s
  | .getbit => Sys2Proof.Machine.execGetbit s
  | .getbits n => Sys2Proof.Machine.execGetbits n s
  | .urestart => Sys2Proof.Machine.execUrestart s
  | .category v => Sys2Proof.Machine.execCategory v s
  | .mag v c => Sys2Proof.Machine.execMag v c s
  | .hlookup cls t sym => Sys2Proof.Machine.execHlookup cls t sym s
  | .emitsym cls t sym => Sys2Proof.Machine.execEmitsym cls t sym s
  | .encodeBlock ch => Sys2Proof.Machine.execEncodeBlock ch s
  | .hdecode cls t => Sys2Proof.Machine.execHdecode cls t s
  | .unmag b c => Sys2Proof.Machine.execUnmag b c s
  | .recvval c => Sys2Proof.Machine.execRecvval c s
  | .decodeBlock ch => Sys2Proof.Machine.execDecodeBlock ch s
  | .dequantize => Sys2Proof.Machine.execDequantize s
  | .quantize => Sys2Proof.Machine.execQuantize s
  | .precheck forCdata => Sys2Proof.Machine.execPrecheck forCdata s
  | .completeEnc => Sys2Proof.Machine.execCompleteEnc s
  | .completeDec => Sys2Proof.Machine.execCompleteDec s

end Sys2Proof.Machine
end

