-- ==== Sys2Proof/Machine/Fetch.lean ====
section
/-! DEFINITION. Taking a record from the input port (spec/20_memory.md R74, R75) and what a step does with one that decodes to
no instruction. CORE has no program counter (R24): the head of the input port stands where other machines fetch. -/

namespace Sys2Proof.Machine

open Sys2Proof

/-- Releases the record at the head of the input port (R75: at the end of its step, which is atomic, R69). -/
def State.release (rest : List (List Byte)) (s : State) : State := { s with inp := rest }

/-- In Halted and Exited records are dropped unexamined (R234, R265 (1)). -/
def State.terminal (s : State) : Bool :=
  match s.scState with
  | .idle => false
  | .scanActive => false
  | .halted => true
  | .exited => true

/-- A record that is no instruction: an unknown kind (R99); otherwise no record of typed fields (log entry 1). -/
def State.onReject (e : DecodeReject) (s : State) : Host.Outcome State Fault Refusal :=
  match e with
  | .unknownKind k => .next (s.onUnknownKind k)
  | .empty => if s.terminal then .next s else .refused .malformedRecord
  | .malformed _ => if s.terminal then .next s else .refused .malformedRecord
  | .badCategory _ => if s.terminal then .next s else .refused .malformedRecord

/-- Places an instruction where the next step takes it: a message at the head of the input port, any other operation in the
issue register (log entry 4). -/
def State.place (i : Instr) (s : State) : State :=
  match encodeRecord i with
  | some img => { s with inp := img :: s.inp, issue := none }
  | none => { s with issue := some i }

end Sys2Proof.Machine
end

