-- ==== Sys2Proof/Machine/Step.lean ====
section
/-! DEFINITION. One step: the processing of one input message from start to finish (R14). -/

namespace Sys2Proof.Machine

open Sys2Proof

/-- One step. With an operation in the model's issue register, that operation (log entry 4; the register is empty at reset and
no step fills it). Otherwise the record at the head of the input port is taken and processed (R74, R75, R220). With an empty
input port CORE waits, which changes no state (R74, R281). -/
def step (s : State) : Host.Outcome State Fault Refusal :=
  match s.issue with
  | some i => exec i { s with issue := none }
  | none =>
    match s.inp with
    | [] => .next s
    | img :: rest =>
      match decodeRecord img with
      | .ok i => exec i (s.release rest)
      | .error e => (s.release rest).onReject e

/-- `s` with the instruction of a table word placed where `step` takes it next; bits that are no instruction stand at the input
port as the record they are. -/
def State.withFetchWord (s : State) (nbits w : Nat) : State :=
  match decodeTableWord nbits w with
  | some i => s.place i
  | none => { s with inp := tableBytes nbits w :: s.inp, issue := none }

end Sys2Proof.Machine
end

