-- ==== Sys2Proof/Safety.lean ====
section
/-! DEFINITION. What counts as a safe run, and the terms claims are stated in: a run of messages, the errors recorded (R281), the
well-formedness of tables and cursors (R34 to R40), the invariant of the states between steps, and the bit stream as the spec
speaks of it (R64, R104, R163). None of these is used by the machine. -/

namespace Sys2Proof.Machine

open Sys2Proof

/-! ## Runs -/

/-- `STATUS[3:0] = 0`, "no error recorded" (R27, R281). -/
def State.noError (s : State) : Prop := s.status.extractLsb' 0 4 = 0

/-- The machine as a fault of the modelling guide sees it: Halted is "never final, never cleared" (R281, R234). -/
def State.isHalted (s : State) : Prop := s.scState = .halted

/-- A safe run of `n` steps: it ends in a next state that is not Halted. -/
def SafeRun (n : Nat) (s : State) : Prop :=
  ∃ t, Host.Core.run Sys2Proof.core n s = .next t ∧ ¬ t.isHalted

/-- The kind of a message; none for the other layers. -/
def msgKind : Instr → Option MsgKind
  | .header .. => some .header
  | .component .. => some .component
  | .hufftable .. => some .hufftable
  | .quanttable .. => some .quanttable
  | .mcu .. => some .mcu
  | .cdata .. => some .cdata
  | .eos => some .eos
  | .dccat .. => none
  | .acrs .. => none
  | .eob => none
  | .zrl => none
  | .acskip .. => none
  | .buildcodes .. => none
  | .qtload .. => none
  | .putbits .. => none
  | .emitbyte .. => none
  | .finalize => none
  | .prestart => none
  | .getbit => none
  | .getbits .. => none
  | .urestart => none
  | .category .. => none
  | .mag .. => none
  | .hlookup .. => none
  | .emitsym .. => none
  | .encodeBlock .. => none
  | .hdecode .. => none
  | .unmag .. => none
  | .recvval .. => none
  | .decodeBlock .. => none
  | .dequantize => none
  | .quantize => none
  | .precheck .. => none
  | .completeEnc => none
  | .completeDec => none

/-- The MCU messages of a scan, one after another. -/
def encodeMcus : List (HalfBlock × HalfBlock × HalfBlock) → State → Host.Outcome State Fault Refusal
  | [], s => .next s
  | (y, cb, cr) :: ms, s =>
    match exec (.mcu y cb cr) s with
    | .next t => encodeMcus ms t
    | .fault f => .fault f
    | .refused r => .refused r

/-! ## Bits -/

/-- The `length` low bits of `value`, most significant first (R64, R150). -/
def msbBits (value length : Nat) : List Bool := (List.range length).map (fun i => value.testBit (length - 1 - i))

/-- The number a list of bits is, most significant first (R159). -/
def bitsValue (bs : List Bool) : Nat := bs.foldl (fun v b => 2 * v + b.toNat) 0

/-- The bits of a byte in stream order: the first is bit 7 (R10). -/
def byteBits (b : Byte) : List Bool := msbBits b.toNat 8

/-- Every 0xFF of a byte sequence is followed by its stuffed 0x00 (R112). -/
def stuffed : List Byte → Bool
  | [] => true
  | [b] => b != 0xFF
  | b :: c :: rest => if b = 0xFF then c == 0x00 && stuffed rest else stuffed (c :: rest)

/-- The data bytes of a stuffed sequence. -/
def unstuff : List Byte → List Byte
  | [] => []
  | [b] => [b]
  | b :: c :: rest => if b = 0xFF then b :: unstuff rest else b :: unstuff (c :: rest)

/-- The bits accepted by the Packer since its restart (R165): those of the data bytes of `OBUF`, then the top `NBITS` of `CUR`. -/
def Packer.bits (p : Packer) : List Bool := (unstuff p.obuf).flatMap byteBits ++ (byteBits p.cur).take p.nbits.val

/-- A run of PUTBITS calls (R163), each a value and a length. -/
def putAll : List (Nat × Nat) → Packer → Packer
  | [], p => p
  | (v, n) :: vs, p => putAll vs (p.putBits v n)

/-- The bits of a run of PUTBITS calls. -/
def putAllBits (vs : List (Nat × Nat)) : List Bool := vs.flatMap (fun x => msbBits x.1 x.2)

/-- The Unpacker after GETBITs that all succeed and return exactly `bs`; none when one fails or returns another bit. -/
def Unpacker.reads : List Bool → Unpacker → Option Unpacker
  | [], u => some u
  | b :: bs, u =>
    match u.getBit with
    | .bit b' u' => if b' = b then Unpacker.reads bs u' else none
    | .fail _ _ => none

/-! ## Well-formed tables and cursors -/

/-- The left end of an entry's span in units of 2^-16: its code as a binary fraction (R36, R133). -/
def HuffEntry.spanLo (e : HuffEntry) : Nat := e.code.toNat * 2 ^ (16 - e.len.toNat)

/-- The right end of an entry's span. -/
def HuffEntry.spanHi (e : HuffEntry) : Nat := (e.code.toNat + 1) * 2 ^ (16 - e.len.toNat)

/-- The code of `a` is a prefix of the code of `b`. -/
def HuffEntry.prefixes (a b : HuffEntry) : Prop :=
  a.len.toNat ≤ b.len.toNat ∧ b.code.toNat / 2 ^ (b.len.toNat - a.len.toNat) = a.code.toNat

/-- The code of an entry as the bits that are written and read (R111). -/
def HuffEntry.bits (e : HuffEntry) : List Bool := msbBits e.code.toNat e.len.toNat

/-- The lengths of the entries in entry order, from the histogram from length `l` on (R36). -/
def entryLengths : Nat → List Nat → List Nat
  | _, [] => []
  | l, n :: ns => List.replicate n l ++ entryLengths (l + 1) ns

/-- The invariants of a valid Huffman slot (R35, R36, R37): its counts agree, at most 256 symbols, entries ordered by length,
every code below `2^LEN`, and the spans of the codes disjoint and rising. -/
def HuffSlot.wf (h : HuffSlot) : Prop :=
  h.valid = true →
    h.entries.length = h.n.toNat ∧ (h.cnt.toList.map BitVec.toNat).sum = h.n.toNat ∧ h.n.toNat ≤ 256 ∧
    h.entries.map (fun e => e.len.toNat) = entryLengths 1 (h.cnt.toList.map BitVec.toNat) ∧
    (∀ e ∈ h.entries, 1 ≤ e.len.toNat ∧ e.len.toNat ≤ 16 ∧ e.code.toNat < 2 ^ e.len.toNat) ∧
    h.entries.Pairwise (fun a b => a.spanHi ≤ b.spanLo)

/-- R34: with `PREC` = 0 every `Q[i]` is at most 255. -/
def QuantSlot.wf (t : QuantSlot) : Prop :=
  t.valid = true → t.prec = false → ∀ i : Fin 64, (t.q[i]).toNat ≤ 255

/-- R39: the bits of `CUR` below its top `NBITS` are 0; R151: `OBUF` is stuffed. -/
def Packer.wf (p : Packer) : Prop := p.cur.toNat % 2 ^ (8 - p.nbits.val) = 0 ∧ stuffed p.obuf = true

/-- R40: `IPOS` is in 0..`ILEN`; inside a byte the byte exists, and a started 0xFF has its 0x00 behind it (R156); R160: a
marker ends the segment. -/
def Unpacker.wf (u : Unpacker) : Prop :=
  u.ipos ≤ u.ibuf.length ∧
  (u.ibit ≠ 0 → u.ipos < u.ibuf.length ∧
    (memRead u.ibuf u.ipos = 0xFF → u.ipos + 1 < u.ibuf.length ∧ memRead u.ibuf (u.ipos + 1) = 0x00)) ∧
  (u.marker ≠ 0 → u.eoseg = true)

/-- The first code of length `l` (R133): the sum over `i < l` of `lengths[i] * 2^(l-i)`, with `lengths[i]` at list index
`i - 1`. -/
def firstCode (lengths : List Nat) (l : Nat) : Nat :=
  ((List.range (l - 1)).map (fun i => lengths.getD i 0 * 2 ^ (l - (i + 1)))).sum

/-- `S(l)` of R102: how many symbols have a code of at most `l` bits. -/
def symbolsUpTo (lengths : List Nat) (l : Nat) : Nat := (lengths.take l).sum

/-- The histogram of a message as numbers, `lengths[l]` at index `l - 1`. -/
def histogram (lengths : Vector Half 16) : List Nat := lengths.toList.map BitVec.toNat

/-- No length is over-subscribed (R132). -/
def fitsCodeSpace (lengths : List Nat) : Prop :=
  ∀ l, 1 ≤ l → l ≤ 16 → firstCode lengths l + lengths.getD (l - 1) 0 ≤ 2 ^ l

/-! ## The states between steps -/

/-- What holds of every state between steps of a run from power-on reset. -/
structure State.Inv (s : State) : Prop where
  /-- the model's issue register is empty (log entry 4) -/
  issueEmpty : s.issue = none
  /-- R26: "Invariant in ScanActive between steps: COUNT < EXPECTED" -/
  countBelow : s.scState = .scanActive → s.count.toNat < s.expected.toNat
  /-- R24: `COUNT` never exceeds `EXPECTED` -/
  countAtMost : s.count.toNat ≤ s.expected.toNat
  /-- R26, R223: `EXPECTED` is what the header's dimensions give -/
  expectedOfHeader : s.hdr.valid = true →
    s.expected.toNat = cdiv8 s.hdr.height.toNat * cdiv8 s.hdr.width.toNat ∧ s.hdr.height ≠ 0 ∧ s.hdr.width ≠ 0
  /-- R30: a scan is open only after a HEADER -/
  headerSeen : s.scState = .scanActive → s.hdr.valid = true
  /-- R272, R273: Halted exactly when a fatal error is recorded -/
  haltedIff : s.scState = .halted ↔ (s.status.getLsbD 0 = true ∨ s.status.getLsbD 3 = true)
  /-- R29, R156: a marker held is a marker recorded -/
  markerRecorded : s.unp.marker ≠ 0 → s.status.getLsbD 4 = true
  /-- R229: in an open scan the Unpacker stands as HEADER left it -/
  unpackerFresh : s.scState = .scanActive → s.unp = Unpacker.reset
  /-- R224, R230: the Packer is empty with no scan open, and before the first MCU -/
  packerEmpty : s.scState = .idle ∨ (s.scState = .scanActive ∧ s.count = 0) → s.packer = Packer.reset
  /-- R224: the predictors are 0 before the first MCU -/
  predFresh : s.scState = .scanActive → s.count = 0 → s.pred = Vector.replicate 3 0
  /-- R176: in an open scan a predictor is a 16-bit value, so that a difference has category at most 16 -/
  predRange : s.scState = .scanActive → ∀ ch : Chan, -32768 ≤ (s.pred[ch]).toInt ∧ (s.pred[ch]).toInt ≤ 32767
  /-- R81, R312: past its first MCU a scan has its components and tables -/
  tablesHeld : s.scState = .scanActive → s.count ≠ 0 → s.precheckFailure (s.needsQuant false) = none
  /-- R39, R151 -/
  packerWf : s.packer.wf
  /-- R40, R160 -/
  unpackerWf : s.unp.wf
  /-- R34 -/
  quantWf : ∀ t : SlotId, (s.qt[t]).wf
  /-- R35 to R37 -/
  huffWf : ∀ (cls : HuffClass) (t : SlotId), (s.huff cls t).wf

/-- A state with the fields no rule reads put to zero (R22, R33): `ID`, `H`, `V` of every component slot. -/
def State.forgetSampling (s : State) : State :=
  { s with comp := Vector.ofFn (fun i => { s.comp[i] with id := 0, h := 0, v := 0 }) }

/-! ## Effects written out -/

/-- A state after a recoverable error of channel `ch` (R270, R271): flag, `CORRUPT[ch]`, one LOG, nothing else. -/
def State.afterBlockError (c : Cause) (ch : Chan) (aux : Byte) (s : State) : State :=
  { s with
    status := s.status ||| (if c.kind = .encode then 0b000010#6 else 0b000100#6)
    corrupt := s.corrupt.set ch true
    out := s.out ++ [.log c (some ch) s.count aux] }

/-- A state after a fatal error (R270, R272): flag, LOG, SHUTDOWN, `ABN` when a scan was open, Halted, nothing else. -/
def State.afterFatal (c : Cause) (aux : Byte) (s : State) : State :=
  { s with
    status := s.status ||| (if c.kind = .malformedTable then 0b000001#6 else 0b001000#6)
      ||| (if s.scState = .scanActive then 0b100000#6 else 0#6)
    out := s.out ++ [.log c none s.count aux, .shutdown c.kind]
    scState := .halted }

/-- The cause a failed read leaves (R191): EndOfData when `MARKER` is 0, otherwise MarkerHit. -/
def Unpacker.failure (u : Unpacker) : Cause := if u.marker = 0 then .endOfData else .markerHit

/-- A state after a failed read (R156): the Unpacker, and `STATUS.MRK` when the read met a marker. -/
def State.afterFailedRead (marker : Bool) (u : Unpacker) (s : State) : State :=
  { s with unp := u, status := if marker then s.status ||| 0b010000#6 else s.status }

/-- The state with a value in the model's result register (log entry 3). -/
def State.returning (r : Res) (s : State) : State := { s with latch := { s.latch with res := r } }

/-! ## The items of a block (R183) -/

/-- One AC item of a block: a ZRL, a non-zero coefficient behind a run of 0 to 15 zeros, or the EOB (R178 to R181). -/
inductive AcItem where
  | zrl
  | coef (run : Nat) (v : Int)
  | eob
  deriving DecidableEq, Repr

/-- The symbol byte of an item; none for a category that does not fit the low nibble (R179 to R181). -/
def AcItem.symbol : AcItem → Option Byte
  | .zrl => some 0xF0
  | .coef run v => if 15 < categoryOf v then none else some (BitVec.ofNat 8 (16 * run + categoryOf v))
  | .eob => some 0x00

/-- The magnitude bits behind the symbol (R180). -/
def AcItem.magnitude : AcItem → List Bool
  | .zrl => []
  | .coef _ v => msbBits (magField v (categoryOf v)).toNat (categoryOf v)
  | .eob => []

/-- The bits of an item in a table; none where the table lacks its symbol, or there is none. -/
def AcItem.bits (h : HuffSlot) (it : AcItem) : Option (List Bool) :=
  match it.symbol with
  | none => none
  | some sym => (h.lookup sym).map (fun e => e.bits ++ it.magnitude)

/-- The bits of a sequence of items; none where one of them has none. -/
def itemsBits (h : HuffSlot) : List AcItem → Option (List Bool)
  | [] => some []
  | it :: its =>
    match it.bits h with
    | none => none
    | some w => (itemsBits h its).map (fun ws => w ++ ws)

/-- The cause of an item that cannot be written (R177, R180). -/
def AcItem.cause : AcItem → Cause
  | .zrl => .noZrlSymbol
  | .coef _ v => if 15 < categoryOf v then .acCategoryTooLarge else .noAcSymbol
  | .eob => .noEobSymbol

/-- Its detail byte (R263): the symbol for NoAcSymbol, 0 otherwise. -/
def AcItem.aux : AcItem → Byte
  | .zrl => 0
  | .coef run v => if 15 < categoryOf v then 0 else BitVec.ofNat 8 (16 * run + categoryOf v)
  | .eob => 0

/-- The items of the non-zero coefficients at rising zigzag positions, behind position `last`: for each, one ZRL for every
sixteen zeros before it, then the coefficient with what is left of the run; at the end an EOB unless position 63 was reached
(R183). -/
def itemsFrom : Nat → List (Nat × Int) → List AcItem
  | last, [] => if last = 63 then [] else [.eob]
  | last, (k, v) :: rest =>
    List.replicate ((k - last - 1) / 16) .zrl ++ .coef ((k - last - 1) % 16) v :: itemsFrom k rest

/-- The zigzag positions 1 to 63 that hold a non-zero coefficient, in order. -/
def acPositions (b : Block) : List Nat := ((List.range 63).map (fun i => i + 1)).filter (fun k => decide (b[zz k] ≠ 0))

/-- The AC items of a block (R183). -/
def acItems (b : Block) : List AcItem := itemsFrom 0 ((acPositions b).map (fun k => (k, (b[zz k]).toInt)))

/-! ## Reading a block symbol by symbol -/

/-- The DecodeError of a failed symbol read in the block of the latched channel (R191, R263): the marker byte for MarkerHit. -/
def State.afterNoSymbol (c : Cause) (s : State) : State :=
  s.afterBlockError c s.latch.ch (if c = .markerHit then s.unp.marker else 0)

/-- The AC loop (R198) with the table `h`, from a state that holds channel and position in the model's latch (log entry 3), each
symbol having the effect of its own instruction: how it ends, and where. -/
inductive AcRun (h : HuffSlot) : State → Res → State → Prop where
  | done {s : State} : 64 ≤ s.latch.k → AcRun h s .ok s
  | noSymbol {s s1 : State} {c : Cause} : s.latch.k < 64 → s.hdecode h = (.error c, s1) → AcRun h s .fail (s1.afterNoSymbol c)
  | failed {s s1 s2 : State} {sym : Byte} : s.latch.k < 64 → s.hdecode h = (.ok sym, s1) →
      exec (decodeAcSymbol sym) s1 = .next s2 → s2.latch.res = .fail → AcRun h s .fail s2
  | item {s s1 s2 t : State} {sym : Byte} {r : Res} : s.latch.k < 64 → s.hdecode h = (.ok sym, s1) →
      exec (decodeAcSymbol sym) s1 = .next s2 → s2.latch.res = .ok → AcRun h s2 r t → AcRun h s r t

/-- A block (R197, R198) with the tables `d` and `a`: its DC symbol, then the AC loop. -/
inductive BlockRun (d a : HuffSlot) : State → Res → State → Prop where
  | noSymbol {s s1 : State} {c : Cause} : s.hdecode d = (.error c, s1) → BlockRun d a s .fail (s1.afterNoSymbol c)
  | badCategory {s s1 : State} {sym : Byte} : s.hdecode d = (.ok sym, s1) → 16 < sym.toNat →
      BlockRun d a s .fail (s1.afterBlockError .badCategory s1.latch.ch sym)
  | failed {s s1 s2 : State} {sym : Byte} {i : Instr} : s.hdecode d = (.ok sym, s1) → decodeDcSymbol sym = .ok i →
      exec i s1 = .next s2 → s2.latch.res = .fail → BlockRun d a s .fail s2
  | item {s s1 s2 t : State} {sym : Byte} {i : Instr} {r : Res} : s.hdecode d = (.ok sym, s1) → decodeDcSymbol sym = .ok i →
      exec i s1 = .next s2 → s2.latch.res = .ok → AcRun a s2 r t → BlockRun d a s r t

/-- The LOGs of QUANTIZE (R212): one for each zero entry of each channel's table, in order. -/
def State.zeroDivisorLogs (s : State) : List Event :=
  (List.finRange 3).flatMap (fun ch =>
    ((List.finRange 64).filter (fun i => (s.quantTable ch)[i] = 0)).map
      (fun i => .log .quantDivZero (some ch) s.count (BitVec.ofNat 8 i.val)))

/-- R222: the states in which HUFFTABLE and QUANTTABLE are accepted. -/
def State.acceptsTables (s : State) : Prop := s.scState = .idle ∨ (s.scState = .scanActive ∧ s.count = 0)

/-- The `tableId` of a class and a slot (R101, R115). -/
def tableIdOf (cls : HuffClass) (t : SlotId) : Byte :=
  BitVec.ofNat 8 ((match cls with | .dc => 0 | .ac => 16) + t.val)

/-! ## Events of a run -/

/-- The three blocks an MCU decodes to (R203, R229): its coefficients, extended and dequantized. -/
def decodedBlocks (s : State) (index : Word) (m : HalfBlock × HalfBlock × HalfBlock) : Event :=
  .blocks index (dequantBlock (extendBlock m.1) (s.quantTable 0)) (dequantBlock (extendBlock m.2.1) (s.quantTable 1))
    (dequantBlock (extendBlock m.2.2) (s.quantTable 2)) (Vector.replicate 3 false)

/-- The BLOCKS events of a scan's MCUs, numbered from `index`. -/
def decodedScan (s : State) : Word → List (HalfBlock × HalfBlock × HalfBlock) → List Event
  | _, [] => []
  | index, m :: ms => decodedBlocks s index m :: decodedScan s (index + 1) ms

/-- The number of an event's MCU, for BLOCKS events (R76). -/
def blocksIndex : Event → Option Word
  | .blocks index _ _ _ _ => some index
  | .scanbuf .. => none
  | .scandone _ => none
  | .log .. => none
  | .shutdown _ => none
  | .eos => none

end Sys2Proof.Machine
end

