-- ==== Sys2Proof/Certificates/Slice0/Obligations.lean ====
section
/-! DEFINITION. The statements for the provers. Each docstring names the rule of spec/ the statement formalises, or the log
entry of the model's own convention it rests on. -/

open Sys2Proof Sys2Proof.Machine

/-! ## Encodings (spec/30_encoding.md) -/

/-- For EVERY instruction: it has a record image exactly when it is a message, and the image of a well-formed message decodes
back to it, every field at every value (R92 to R98; the image's bytes are the model's own layout, log entry 1). -/
def Obligations.MessageEncodeDecodeRoundTrip : Prop :=
  ∀ i : Instr, (i.layer = .message ↔ (encodeRecord i).isSome = true) ∧
    ∀ img, encodeRecord i = some img → i.wellFormed = true → decodeRecord img = .ok i

/-- The other direction: bytes that decode are the one image of a well-formed message (log entry 1). -/
def Obligations.DecodedRecordIsItsOwnImage : Prop :=
  ∀ (img : List Byte) (i : Instr), decodeRecord img = .ok i →
    i.wellFormed = true ∧ i.layer = .message ∧ encodeRecord i = some img

/-- Symbol bytes (R105 to R108, R200): the byte of a DC category 0..16 decodes to it first in a block, the byte of an AC symbol
decodes to it later in a block; every byte is the byte of its AC symbol; a DC byte above 16 is illegal (R113 (5)). -/
def Obligations.SymbolBytesHaveOneReading : Prop :=
  (∀ c : BitVec 5, c.toNat ≤ 16 → ∃ b, symbolByte (.dccat c) = some b ∧ decodeDcSymbol b = .ok (.dccat c)) ∧
  (∀ i : Instr, i.layer = .symbol → i.wellFormed = true → (∀ c, i ≠ .dccat c) →
    ∃ b, symbolByte i = some b ∧ decodeAcSymbol b = i) ∧
  (∀ b : Byte, symbolByte (decodeAcSymbol b) = some b) ∧
  (∀ b : Byte, 16 < b.toNat → decodeDcSymbol b = .error (.badCategory b))

/-- Kind tags of R91 and symbol patterns of R105 to R108, R113 written out bit by bit: each reads as the instruction it stands
for; 0x00 and 0x08 are no kinds (R99). The bytes after a kind tag follow log entry 1. -/
def Obligations.SpecWordsDecode : Prop :=
  decodeRecord [0b00000111] = .ok .eos ∧
  decodeRecord [0b00000110, 0, 0, 0, 2, 0xFF, 0xD9] = .ok (.cdata [0xFF, 0xD9]) ∧
  decodeRecord [0b00000010, 1, 2, 3, 4, 5, 6] = .ok (.component 1 2 3 4 5 6) ∧
  decodeRecord [0b00000001, 0x01, 0x02, 0xFF, 0xFF, 1, 0x41, 0, 0, 8, 0, 63, 0]
    = .ok (.header 0x0102 0xFFFF [0x41] [] 8 0 63 0) ∧
  decodeRecord [0b00000000] = .error (.unknownKind 0) ∧ decodeRecord [0b00001000, 7] = .error (.unknownKind 8) ∧
  decodeDcSymbol 0b00010000 = .ok (.dccat 16) ∧
  decodeAcSymbol 0b00000000 = .eob ∧ decodeAcSymbol 0b11110000 = .zrl ∧
  decodeAcSymbol 0b01000001 = .acrs 4 1 ∧ decodeAcSymbol 0b11110001 = .acrs 15 1 ∧
  decodeAcSymbol 0b11100000 = .acskip 14

/-! ## Steps (spec/00_scope.md R14, spec/20_memory.md R74) -/

/-- A step takes the record at the head of the input port and runs exactly the message it decodes to, the record released
(R14, R74, R75); with an empty port it waits and changes nothing; an operation in the model's issue register, which no message
fills, runs on its own (log entry 4). -/
def Obligations.StepRunsTheDecodedMessage : Prop :=
  ∀ s : State,
    (∀ img rest i, s.issue = none → s.inp = img :: rest → decodeRecord img = .ok i →
      step s = exec i { s with inp := rest }) ∧
    (s.issue = none → s.inp = [] → step s = .next s) ∧
    (∀ i, s.issue = some i → step s = exec i { s with issue := none })

/-- A record whose kind is none of 0x01..0x07 (R99, R233): UnknownKind with the kind byte, Halted, in Idle and ScanActive;
dropped in Halted and Exited, where the model picks between the rules (log entry 17, DEDUCED: R99 says a violation in every
state, R222, R234 and R265 drop every record there). -/
def Obligations.UnknownKindIsAViolation : Prop :=
  ∀ (s : State) (k : Byte) (body : List Byte) (rest : List (List Byte)),
    s.issue = none → s.inp = (k :: body) :: rest → (k = 0 ∨ 7 < k.toNat) →
    (s.scState = .idle ∨ s.scState = .scanActive →
      step s = .next (State.afterFatal .unknownKind k { s with inp := rest })) ∧
    (s.scState = .halted ∨ s.scState = .exited → step s = .next { s with inp := rest })

/-- Every message, and every symbol and internal operation, ends in a next state in every state (R282; R17: "total functions over
the state"); a step of the input port stops only on a record that is no record of typed fields (log entry 1). -/
def Obligations.MessagesAlwaysComplete : Prop :=
  (∀ (i : Instr) (s : State), ∃ t, exec i s = .next t) ∧
  (∀ s : State, s.issue = none →
    (∃ t, step s = .next t) ∨ (step s = .refused .malformedRecord ∧ s.scState ≠ .halted ∧ s.scState ≠ .exited))

/-! ## Errors (spec/60_exceptions.md) -/

/-- The codes and sub-codes of R261 and R262, row by row. -/
def Obligations.ErrorCodesAsListed : Prop :=
  [Cause.badId, .tooManySymbols, .countMismatch, .overSubscribed, .noDcSymbol, .noAcSymbol, .noZrlSymbol, .noEobSymbol,
    .acCategoryTooLarge, .quantDivZero, .noCode, .endOfData, .markerHit, .badCategory, .indexOverflow, .unknownKind,
    .unexpectedInState, .badQuantId, .zeroDimension, .missingSetup, .tooManyComponents].map (fun c => (c.kind.code, c.sub))
  = [(1, 1), (1, 2), (1, 3), (1, 4), (2, 1), (2, 2), (2, 3), (2, 4), (2, 5), (2, 6), (3, 1), (3, 2), (3, 3), (3, 4), (3, 5),
    (4, 1), (4, 2), (4, 3), (4, 4), (4, 5), (4, 6)]

/-- R270 to R272, the two classes of error: a recoverable error sets its flag and `CORRUPT[ch]`, emits one LOG with
`index = COUNT`, and changes nothing else; a fatal error sets its flag, emits LOG and SHUTDOWN, sets `ABN` when a scan is open,
enters Halted, and changes nothing else. -/
def Obligations.ErrorEntryByClass : Prop :=
  ∀ (c : Cause) (aux : Byte) (s : State),
    ((c.kind = .encode ∨ c.kind = .decode) → ∀ ch : Chan, s.raise c (some ch) aux = s.afterBlockError c ch aux) ∧
    ((c.kind = .malformedTable ∨ c.kind = .protocol) → s.raise c none aux = s.afterFatal c aux)

/-- The "V" cells of R222's table: UnexpectedInState with the message's kind byte. -/
def Obligations.UnexpectedMessageIsAViolation : Prop :=
  ∀ (i : Instr) (k : MsgKind) (s : State), msgKind i = some k →
    ((s.scState = .idle ∧ (k = .component ∨ k = .mcu ∨ k = .cdata)) ∨
     (s.scState = .scanActive ∧ s.count ≠ 0 ∧ (k = .component ∨ k = .hufftable ∨ k = .quanttable ∨ k = .cdata))) →
    exec i s = .next (s.afterFatal .unexpectedInState k.tag)

/-- R234: in Exited every message is dropped, in Halted every message but EOS, which is forwarded. -/
def Obligations.TerminalStatesDropMessages : Prop :=
  ∀ (i : Instr) (k : MsgKind) (s : State), msgKind i = some k →
    (s.scState = .exited ∨ (s.scState = .halted ∧ k ≠ .eos) → exec i s = .next s) ∧
    (s.scState = .halted → k = .eos → exec i s = .next { s with out := s.out ++ [.eos] })

/-! ## HEADER and COMPONENT -/

/-- R224: HEADER with non-zero dimensions, in Idle and in ScanActive: every register it writes, and no other. -/
def Obligations.HeaderOpensScan : Prop :=
  ∀ (s : State) (h w : Half) (file frame : List Byte) (p ss se sa : Byte),
    (s.scState = .idle ∨ s.scState = .scanActive) → h ≠ 0 → w ≠ 0 →
    exec (.header h w file frame p ss se sa) s = .next { s with
      scState := .scanActive
      status := if s.scState = .scanActive then s.status ||| 0b100000#6 else s.status
      hdr := { valid := true, height := h, width := w, filename := file, frameType := frame, precision := p,
               ss := ss, se := se, sa := sa }
      pred := #v[0, 0, 0]
      expected := BitVec.ofNat 32 (((h.toNat + 7) / 8) * ((w.toNat + 7) / 8))
      count := 0
      ncomp := 0
      corrupt := #v[false, false, false]
      packer := { obuf := [], cur := 0, nbits := 0 }
      unp := { ibuf := [], ipos := 0, ibit := 0, eoseg := false, marker := 0 } } ∧
    ((h.toNat + 7) / 8) * ((w.toNat + 7) / 8) ≤ 2 ^ 26

/-- R223: HEADER with a zero dimension is refused: ZeroDimension, and nothing else is written. -/
def Obligations.HeaderZeroDimensionIsRefused : Prop :=
  ∀ (s : State) (h w : Half) (file frame : List Byte) (p ss se sa : Byte),
    (s.scState = .idle ∨ s.scState = .scanActive) → (h = 0 ∨ w = 0) →
    exec (.header h w file frame p ss se sa) s = .next (s.afterFatal .zeroDimension 0)

/-- R225: COMPONENT fills the slot of the next channel in arrival order; a fourth is TooManyComponents. -/
def Obligations.ComponentFillsTheNextSlot : Prop :=
  ∀ (s : State) (id hs vs tq ta td : Byte), s.scState = .scanActive → s.count = 0 →
    (∀ h : s.ncomp.val < 3,
      exec (.component id hs vs tq ta td) s = .next { s with
        comp := s.comp.set s.ncomp.val { id := id, h := hs, v := vs, tq := tq, ta := ta, td := td } h
        ncomp := s.ncomp + 1 }) ∧
    (s.ncomp = 3 → exec (.component id hs vs tq ta td) s = .next (s.afterFatal .tooManyComponents id))

/-! ## Table stores (spec/40_code_builder.md) -/

/-- R131, R133, R137: with a legal id, at most 256 symbols, a matching symbol list and no over-subscribed length, BUILDCODES
writes the whole slot: the `p`-th symbol of length `l` gets the code `F(l) + p` of `l` bits. HUFFTABLE, where it is accepted,
does the same with the same counts as bytes (R94, R226; log entry 8). No other register changes. -/
def Obligations.BuildcodesAssignsCanonicalCodes : Prop :=
  ∀ (s : State) (cls : HuffClass) (t : SlotId) (lengths : Vector Half 16) (table : List Byte),
    (histogram lengths).sum ≤ 256 → table.length = (histogram lengths).sum → fitsCodeSpace (histogram lengths) →
    ∃ (slot : HuffSlot) (s' : State),
      slot.valid = true ∧ slot.n.toNat = (histogram lengths).sum ∧ slot.entries.length = (histogram lengths).sum ∧
      (∀ i : Fin 16, (slot.cnt[i]).toNat = (lengths[i]).toNat) ∧
      (∀ l p, 1 ≤ l → l ≤ 16 → p < (histogram lengths).getD (l - 1) 0 →
        ∃ e, slot.entries[symbolsUpTo (histogram lengths) (l - 1) + p]? = some e ∧
          table[symbolsUpTo (histogram lengths) (l - 1) + p]? = some e.sym ∧
          e.len.toNat = l ∧ e.code.toNat = firstCode (histogram lengths) l + p) ∧
      s' = (match cls with
        | .dc => { s with htDc := s.htDc.set t slot }
        | .ac => { s with htAc := s.htAc.set t slot }) ∧
      exec (.buildcodes (tableIdOf cls t) lengths table) s = .next s' ∧
      (∀ bytes : Vector Byte 16, lengths = wideLengths bytes → s.acceptsTables →
        exec (.hufftable (tableIdOf cls t) bytes table) s = .next s')

/-- R135, R136: the first failing check decides the sub-code and `aux`; the stream halts; with a legal id the addressed slot is
invalid and no other slot changes; with an illegal one no slot changes. The invalid slot's other fields are free values (log
entry 5): nothing is said of them. HUFFTABLE, where it is accepted, does the same with the same counts as bytes (R94; log
entry 8). -/
def Obligations.MalformedTableHaltsTheStream : Prop :=
  ∀ (s : State) (id : Byte) (lengths : Vector Half 16) (table : List Byte),
    (id.toNat / 32 ≠ 0 ∨ 4 ≤ id.toNat % 16 →
      exec (.buildcodes id lengths table) s = .next (s.afterFatal .badId id) ∧
      (∀ bytes : Vector Byte 16, lengths = wideLengths bytes → s.acceptsTables →
        exec (.hufftable id bytes table) s = .next (s.afterFatal .badId id))) ∧
    (∀ (cls : HuffClass) (t : SlotId) (c : Cause) (aux : Byte), id = tableIdOf cls t →
      ((c = .tooManySymbols ∧ aux = id ∧ 256 < (histogram lengths).sum) ∨
       (c = .countMismatch ∧ aux = id ∧ (histogram lengths).sum ≤ 256 ∧ table.length ≠ (histogram lengths).sum) ∨
       (c = .overSubscribed ∧ (histogram lengths).sum ≤ 256 ∧ table.length = (histogram lengths).sum ∧
        ∃ l, 1 ≤ l ∧ l ≤ 16 ∧ aux = BitVec.ofNat 8 l ∧
          2 ^ l < firstCode (histogram lengths) l + (histogram lengths).getD (l - 1) 0 ∧
          ∀ l', 1 ≤ l' → l' < l →
            firstCode (histogram lengths) l' + (histogram lengths).getD (l' - 1) 0 ≤ 2 ^ l')) →
      ∃ (slot : HuffSlot) (s' : State), slot.valid = false ∧
        s' = (match cls with
          | .dc => { s.afterFatal c aux with htDc := s.htDc.set t slot, freeIx := s.freeIx + 1 }
          | .ac => { s.afterFatal c aux with htAc := s.htAc.set t slot, freeIx := s.freeIx + 1 }) ∧
        exec (.buildcodes id lengths table) s = .next s' ∧
        (∀ bytes : Vector Byte 16, lengths = wideLengths bytes → s.acceptsTables →
          exec (.hufftable id bytes table) s = .next s'))

/-- R134: what a successful build guarantees: codes fit their lengths, no two entries share (length, code), and no code is a
prefix of another's. -/
def Obligations.BuiltCodesArePrefixFree : Prop :=
  ∀ (id : Byte) (lengths : Vector Half 16) (table : List Byte) (es : List HuffEntry),
    buildEntries id lengths table = .ok es →
    (∀ e ∈ es, e.code.toNat < 2 ^ e.len.toNat) ∧
    es.Pairwise (fun a b => (a.len, a.code) ≠ (b.len, b.code)) ∧
    es.Pairwise (fun a b => ¬ a.prefixes b ∧ ¬ b.prefixes a)

/-- R35 to R37: the slot a successful build writes is well formed. -/
def Obligations.BuiltSlotIsWellFormed : Prop :=
  ∀ (id : Byte) (lengths : Vector Half 16) (table : List Byte) (es : List HuffEntry),
    buildEntries id lengths table = .ok es → (builtSlot lengths es).wf

/-- R141: QTLOAD replaces the slot whole, whatever the entries; an id at or above `NQT` is BadQuantId and changes no slot.
QUANTTABLE, where it is accepted, does the same (R226). -/
def Obligations.QtloadReplacesTheSlot : Prop :=
  ∀ (s : State) (id : Byte) (prec : Bool) (table : HalfBlock),
    (∀ h : id.toNat < 4,
      exec (.qtload id prec table) s
        = .next { s with qt := s.qt.set id.toNat { valid := true, prec := prec, q := table } h } ∧
      (s.acceptsTables → exec (.quanttable id prec table) s
        = .next { s with qt := s.qt.set id.toNat { valid := true, prec := prec, q := table } h })) ∧
    (4 ≤ id.toNat →
      exec (.qtload id prec table) s = .next (s.afterFatal .badQuantId id) ∧
      (s.acceptsTables → exec (.quanttable id prec table) s = .next (s.afterFatal .badQuantId id)))

/-! ## Packer and Unpacker (spec/41_bit_packer_unpacker.md) -/

/-- R64, R150: PUTBITS appends the `n` low bits of `v`, most significant first, to the bits accepted so far, stuffed whole
bytes going out; the Packer stays well formed and nothing else changes. -/
def Obligations.PutbitsAppendsBits : Prop :=
  ∀ (s : State) (v n : Nat), s.packer.wf →
    ∃ p, exec (.putbits v n) s = .next { s with packer := p } ∧ p.wf ∧ p.bits = s.packer.bits ++ msbBits v n ∧
      p.nbits.val = (s.packer.nbits.val + n) % 8

/-- R151: EMITBYTE appends the byte, and 0x00 behind 0xFF. -/
def Obligations.EmitbyteStuffs : Prop :=
  ∀ (s : State) (b : Byte),
    exec (.emitbyte b) s = .next { s with packer := { s.packer with
      obuf := s.packer.obuf ++ (if b = 0xFF then [0xFF, 0x00] else [b]) } }

/-- R152, R153: FINALIZE pads a partial byte with 1 bits, stuffed like any other; on a byte boundary it does nothing. -/
def Obligations.FinalizePadsWithOnes : Prop :=
  ∀ s : State,
    (s.packer.nbits = 0 → exec .finalize s = .next s) ∧
    (s.packer.wf → ∃ p, exec .finalize s = .next { s with packer := p } ∧ p.wf ∧ p.nbits = 0 ∧ p.cur = (if s.packer.nbits = 0 then s.packer.cur else 0) ∧
      p.bits = s.packer.bits ++ List.replicate ((8 - s.packer.nbits.val) % 8) true)

/-- R154, R162: PRESTART and URESTART clear their cursors and nothing else; `STATUS.MRK` stays. -/
def Obligations.RestartsClearTheCursors : Prop :=
  ∀ s : State,
    exec .prestart s = .next { s with packer := { obuf := [], cur := 0, nbits := 0 } } ∧
    exec .urestart s = .next { s with unp := { ibuf := [], ipos := 0, ibit := 0, eoseg := false, marker := 0 } }

/-- R163, the mirror property: the bits of any PUTBITS calls after PRESTART, finalized and loaded into a restarted Unpacker, are
read back in order with `MARKER` 0; then the 1 padding bits; then GETBIT fails with end of data. -/
def Obligations.UnpackerMirrorsPacker : Prop :=
  ∀ vs : List (Nat × Nat),
    ∃ u u', Unpacker.reads (putAllBits vs) { Unpacker.reset with ibuf := (putAll vs Packer.reset).finalize.obuf } = some u ∧
      u.marker = 0 ∧
      Unpacker.reads (List.replicate ((8 - (putAllBits vs).length % 8) % 8) true) u = some u' ∧ u'.marker = 0 ∧
      u'.getBit = .fail false { u' with eoseg := true }

/-- R156, line by line: the ended segment, the exhausted buffer, a trailing 0xFF, a marker, and a delivered bit with the
cursor's advance, past a stuffed 0x00 too (R157, R158, R160). The bit, or the failure, stands in the model's result register
(log entry 3). -/
def Obligations.GetbitReadsOneBit : Prop :=
  ∀ (s : State) (b : Byte),
    (s.unp.eoseg = true → exec .getbit s = .next (s.returning .fail)) ∧
    (s.unp.eoseg = false → s.unp.ibuf[s.unp.ipos]? = none →
      exec .getbit s = .next (State.returning .fail { s with unp := { s.unp with eoseg := true } })) ∧
    (s.unp.eoseg = false → s.unp.ibuf[s.unp.ipos]? = some 0xFF → s.unp.ibit = 0 → s.unp.ibuf[s.unp.ipos + 1]? = none →
      exec .getbit s = .next (State.returning .fail { s with unp := { s.unp with eoseg := true } })) ∧
    (s.unp.eoseg = false → s.unp.ibuf[s.unp.ipos]? = some 0xFF → s.unp.ibit = 0 → b ≠ 0 →
      s.unp.ibuf[s.unp.ipos + 1]? = some b →
      exec .getbit s = .next (State.returning .fail { s with
        unp := { s.unp with eoseg := true, marker := b }
        status := s.status ||| 0b010000#6 })) ∧
    (s.unp.eoseg = false → s.unp.ibuf[s.unp.ipos]? = some b →
      (b = 0xFF → s.unp.ibit = 0 → s.unp.ibuf[s.unp.ipos + 1]? = some 0) →
      exec .getbit s = .next (State.returning (.bit (b.getLsbD (7 - s.unp.ibit.val))) { s with
        unp := if s.unp.ibit = 7 then { s.unp with ibit := 0, ipos := s.unp.ipos + (if b = 0xFF then 2 else 1) }
               else { s.unp with ibit := s.unp.ibit + 1 } }))

/-- R159: GETBITS returns the bits read as a number, most significant first, and moves the Unpacker past them; a failure
partway leaves the bits already taken consumed. Results in the model's result register (log entry 3). -/
def Obligations.GetbitsReadsAValue : Prop :=
  ∀ (s : State) (bs : List Bool) (u : Unpacker), Unpacker.reads bs s.unp = some u →
    exec (.getbits bs.length) s = .next (State.returning (.int (bitsValue bs)) { s with unp := u }) ∧
    (∀ (n : Nat) (u' : Unpacker), u.getBit = .fail false u' →
      exec (.getbits (bs.length + n + 1)) s = .next (State.returning .fail { s with unp := u' })) ∧
    (∀ (n : Nat) (u' : Unpacker), u.getBit = .fail true u' →
      exec (.getbits (bs.length + n + 1)) s
        = .next (State.returning .fail { s with unp := u', status := s.status ||| 0b010000#6 }))

/-- R161, R201: once `EOSEG` is set no read succeeds or changes a register, and a DECODE_BLOCK leaves a block of zeros, its
predictor unchanged, with the one DecodeError the end of the segment gives (EndOfData, or MarkerHit with the marker). -/
def Obligations.EndedSegmentDeliversNothing : Prop :=
  ∀ s : State, s.unp.eoseg = true →
    exec .getbit s = .next (s.returning .fail) ∧
    (∀ n, exec (.getbits (n + 1)) s = .next (s.returning .fail)) ∧
    (∀ cls t, exec (.hdecode cls t) s
      = .next (s.returning (.failCause (if s.unp.marker = 0 then .endOfData else .markerHit)))) ∧
    (∀ c, exec (.recvval (c + 1)) s
      = .next (s.returning (.failCause (if s.unp.marker = 0 then .endOfData else .markerHit)))) ∧
    (∀ ch : Chan,
      exec (.decodeBlock ch) s = .next (State.returning .fail (State.afterBlockError
        (if s.unp.marker = 0 then .endOfData else .markerHit) ch s.unp.marker
        { s with coef := s.coef.set ch (Vector.replicate 64 0) })))

/-! ## Value coding (spec/42_entropy_encoder.md, spec/43_entropy_decoder.md) -/

/-- R170: CATEGORY is 0 for 0 and otherwise the `c` with `2^(c-1) <= |v| < 2^c` (result register, log entry 3). -/
def Obligations.CategoryCountsBits : Prop :=
  ∀ (v : Int) (s : State), ∃ c : Nat, exec (.category v) s = .next (s.returning (.int c)) ∧
    (v = 0 → c = 0) ∧ (v ≠ 0 → 1 ≤ c ∧ 2 ^ (c - 1) ≤ v.natAbs ∧ v.natAbs < 2 ^ c)

/-- R172, R192: MAG of a value fits its category and UNMAG brings the value back; UNMAG of a field is the field from `2^(c-1)` on
and the field less `2^c - 1` below it, a value of that category, and MAG brings the field back; `UNMAG(b, 0) = 0`. Nothing but the result register changes (log entry 3). -/
def Obligations.MagAndUnmagAreInverse : Prop :=
  (∀ (v : Int) (c : Nat) (s : State), v.natAbs < 2 ^ c → (c = 0 ∨ 2 ^ (c - 1) ≤ v.natAbs) →
    ∃ b : Nat, b < 2 ^ c ∧ (0 < v → (b : Int) = v) ∧ (v ≤ 0 → (b : Int) = v + 2 ^ c - 1) ∧
      exec (.mag v c) s = .next (s.returning (.int b)) ∧ exec (.unmag b c) s = .next (s.returning (.int v))) ∧
  (∀ (b c : Nat) (s : State), 1 ≤ c → b < 2 ^ c →
    ∃ v : Int, exec (.unmag b c) s = .next (s.returning (.int v)) ∧
      (2 ^ (c - 1) ≤ b → v = b) ∧ (b < 2 ^ (c - 1) → v = b - (2 ^ c - 1)) ∧
      2 ^ (c - 1) ≤ v.natAbs ∧ v.natAbs < 2 ^ c ∧ exec (.mag v c) s = .next (s.returning (.int b))) ∧
  (∀ (b : Nat) (s : State), exec (.unmag b 0) s = .next (s.returning (.int 0)))

/-- R193: RECVVAL reads the magnitude bits of a value and returns the value; with `c = 0` it reads nothing; where a bit fails it
returns the cause (R191), the bits before it consumed (result register, log entry 3). -/
def Obligations.RecvvalReadsTheValue : Prop :=
  ∀ (s : State),
    (∀ (v : Int) (c : Nat) (u : Unpacker), v.natAbs < 2 ^ c → (c = 0 ∨ 2 ^ (c - 1) ≤ v.natAbs) →
      Unpacker.reads (msbBits (magField v c).toNat c) s.unp = some u →
      exec (.recvval c) s = .next (State.returning (.int v) { s with unp := u })) ∧
    (∀ (bs : List Bool) (u u' : Unpacker) (n : Nat) (marker : Bool),
      Unpacker.reads bs s.unp = some u → u.getBit = .fail marker u' →
      exec (.recvval (bs.length + n + 1)) s = .next (State.returning (.failCause u'.failure) (s.afterFailedRead marker u')))

/-- R173: HLOOKUP returns the first entry, in entry order, with the symbol; none fails. -/
def Obligations.HlookupReturnsTheFirstEntry : Prop :=
  ∀ (s : State) (cls : HuffClass) (t : SlotId) (sym : Byte),
    (∀ (j : Nat) (e : HuffEntry), (s.huff cls t).entries[j]? = some e → e.sym = sym →
      (∀ j' e', j' < j → (s.huff cls t).entries[j']? = some e' → e'.sym ≠ sym) →
      exec (.hlookup cls t sym) s = .next (s.returning (.codeLen e.code e.len))) ∧
    ((∀ e ∈ (s.huff cls t).entries, e.sym ≠ sym) → exec (.hlookup cls t sym) s = .next (s.returning .fail))

/-- R175: EMITSYM writes the bits of the first entry with the symbol; with none it fails, writing nothing. -/
def Obligations.EmitsymWritesTheCode : Prop :=
  ∀ (s : State) (cls : HuffClass) (t : SlotId) (sym : Byte), s.packer.wf →
    (∀ (j : Nat) (e : HuffEntry), (s.huff cls t).entries[j]? = some e → e.sym = sym →
      (∀ j' e', j' < j → (s.huff cls t).entries[j']? = some e' → e'.sym ≠ sym) →
      ∃ p, exec (.emitsym cls t sym) s = .next (State.returning .ok { s with packer := p }) ∧
        p.wf ∧ p.bits = s.packer.bits ++ e.bits) ∧
    ((∀ e ∈ (s.huff cls t).entries, e.sym ≠ sym) → exec (.emitsym cls t sym) s = .next (s.returning .fail))

/-- R190, R194: on a valid, well-formed slot HDECODE reads exactly the bits of an entry's code and returns its symbol; on
sixteen bits that start with no entry's code it consumes the sixteen and fails with NoCode; where a bit fails before a code is
complete it fails with EndOfData or MarkerHit (R191). -/
def Obligations.HdecodeReadsOneCode : Prop :=
  ∀ (s : State) (cls : HuffClass) (t : SlotId), (s.huff cls t).wf → (s.huff cls t).valid = true →
    (∀ (e : HuffEntry) (u : Unpacker), e ∈ (s.huff cls t).entries → Unpacker.reads e.bits s.unp = some u →
      exec (.hdecode cls t) s = .next (State.returning (.symbol e.sym) { s with unp := u })) ∧
    (∀ (bs : List Bool) (u : Unpacker), bs.length = 16 → (∀ e ∈ (s.huff cls t).entries, ¬ e.bits <+: bs) →
      Unpacker.reads bs s.unp = some u →
      exec (.hdecode cls t) s = .next (State.returning (.failCause .noCode) { s with unp := u })) ∧
    (∀ (bs : List Bool) (u u' : Unpacker) (marker : Bool), bs.length < 16 →
      (∀ e ∈ (s.huff cls t).entries, ¬ e.bits <+: bs) →
      Unpacker.reads bs s.unp = some u → u.getBit = .fail marker u' →
      exec (.hdecode cls t) s = .next (State.returning (.failCause u'.failure) (s.afterFailedRead marker u')))

/-! ## Blocks -/

/-- R176, R177, R182: ENCODE_BLOCK completes on every state, whatever tables its component names (a table that does not exist has
free values as its contents, log entry 6). It writes the channel's predictor (always with coefficient 0) and appends to the
Packer: bytes in `OBUF` stay (R61), and so do the bits accepted before, those of a failing block included. On failure it
raises the one EncodeError of its channel; it changes no other register. With no symbol for the DC category it writes no bit:
NoDcSymbol with the category. -/
def Obligations.EncodeBlockEffect : Prop :=
  ∀ (s : State) (ch : Chan),
    (∃ p : Packer, s.packer.obuf <+: p.obuf ∧ (s.packer.wf → p.wf ∧ s.packer.bits <+: p.bits) ∧
      (exec (.encodeBlock ch) s
          = .next (State.returning .ok { s with packer := p, pred := s.pred.set ch s.coef[ch][(0 : Fin 64)] }) ∨
       ∃ (c : Cause) (aux : Byte), c.kind = .encode ∧ c ≠ .quantDivZero ∧
        exec (.encodeBlock ch) s = .next (State.returning .fail (State.afterBlockError c ch aux
          { s with packer := p, pred := s.pred.set ch s.coef[ch][(0 : Fin 64)] })))) ∧
    (∀ c : Nat,
      ((s.coef[ch][(0 : Fin 64)]).toInt - (s.pred[ch]).toInt).natAbs < 2 ^ c →
      (c = 0 ∨ 2 ^ (c - 1) ≤ ((s.coef[ch][(0 : Fin 64)]).toInt - (s.pred[ch]).toInt).natAbs) →
      (∀ e ∈ (s.dcTable ch).entries, e.sym ≠ BitVec.ofNat 8 c) →
      exec (.encodeBlock ch) s = .next (State.returning .fail (State.afterBlockError .noDcSymbol ch (BitVec.ofNat 8 c)
        { s with pred := s.pred.set ch s.coef[ch][(0 : Fin 64)] })))

/-- R176 to R181, R183, for every block: after its DC item ENCODE_BLOCK writes, for each non-zero AC coefficient in zigzag order,
`floor(run/16)` ZRLs and the symbol of (run mod 16, category) with its magnitude bits, and an EOB unless zigzag position 63 is
non-zero (so for a block without AC terms the DC item and one EOB); at the first item that cannot be written it stops, the bits
before it written, with that item's EncodeError (R177). -/
def Obligations.EncodeBlockWritesItsItems : Prop :=
  ∀ (s : State) (ch : Chan) (c : Nat) (d : HuffEntry),
    s.packer.wf →
    ((s.coef[ch][(0 : Fin 64)]).toInt - (s.pred[ch]).toInt).natAbs < 2 ^ c →
    (c = 0 ∨ 2 ^ (c - 1) ≤ ((s.coef[ch][(0 : Fin 64)]).toInt - (s.pred[ch]).toInt).natAbs) →
    (s.dcTable ch).lookup (BitVec.ofNat 8 c) = some d →
    (∀ w : List Bool, itemsBits (s.acTable ch) (acItems s.coef[ch]) = some w →
      ∃ p, exec (.encodeBlock ch) s
          = .next (State.returning .ok { s with packer := p, pred := s.pred.set ch s.coef[ch][(0 : Fin 64)] }) ∧
        p.wf ∧ p.bits = s.packer.bits ++ d.bits
          ++ msbBits (magField ((s.coef[ch][(0 : Fin 64)]).toInt - (s.pred[ch]).toInt) c).toNat c ++ w) ∧
    (∀ (before after : List AcItem) (it : AcItem) (w : List Bool), acItems s.coef[ch] = before ++ it :: after →
      itemsBits (s.acTable ch) before = some w → it.bits (s.acTable ch) = none →
      ∃ p, exec (.encodeBlock ch) s = .next (State.returning .fail (State.afterBlockError it.cause ch it.aux
          { s with packer := p, pred := s.pred.set ch s.coef[ch][(0 : Fin 64)] })) ∧
        p.wf ∧ p.bits = s.packer.bits ++ d.bits
          ++ msbBits (magField ((s.coef[ch][(0 : Fin 64)]).toInt - (s.pred[ch]).toInt) c).toNat c ++ w) ∧
    ((∀ i : Fin 64, i ≠ 0 → s.coef[ch][i] = 0) → acItems s.coef[ch] = [.eob])

/-- R195 to R202: DECODE_BLOCK completes on every state, whatever tables its component names (a table that does not exist has free
values as its contents, log entry 6). It writes the channel's block, the channel's predictor and the Unpacker, and on failure
the one DecodeError of its channel; it changes no other register (`STATUS.MRK` may be set by GETBIT). Block and predictor are
what its symbols give, each with the effect of its own instruction (DccatAddsTheDifference, AcrsStoresTheCoefficient,
BitlessSymbolsMoveThePosition: a ZRL goes on sixteen positions and may pass 63 in silence, IndexOverflow reads no bit), run from
a cleared block at position 1 through the model's latch (log entry 3). A DC symbol above 16 is BadCategory, leaving a block of
zeros and the predictor (R197, R201). -/
def Obligations.DecodeBlockEffect : Prop :=
  ∀ (s : State) (ch : Chan),
    (∃ (u : Unpacker) (b : Block) (p : Word) (st : BitVec 6),
      u.ibuf = s.unp.ibuf ∧ (st = s.status ∨ st = s.status ||| 0b010000#6) ∧
      (exec (.decodeBlock ch) s = .next (State.returning .ok
          { s with unp := u, coef := s.coef.set ch b, pred := s.pred.set ch p, status := st }) ∨
       ∃ (c : Cause) (aux : Byte), c.kind = .decode ∧
        exec (.decodeBlock ch) s = .next (State.returning .fail (State.afterBlockError c ch aux
          { s with unp := u, coef := s.coef.set ch b, pred := s.pred.set ch p, status := st })))) ∧
    (∃ (r : Res) (t : State),
      BlockRun (s.dcTable ch) (s.acTable ch)
        { s with coef := s.coef.set ch (Vector.replicate 64 0), latch := { ch := ch, k := 1, res := .none } } r t ∧
      exec (.decodeBlock ch) s = .next (State.returning r { t with latch := s.latch })) ∧
    (∀ (e : HuffEntry) (u : Unpacker),
      (s.dcTable ch).wf → (s.dcTable ch).valid = true → e ∈ (s.dcTable ch).entries → 16 < e.sym.toNat →
      Unpacker.reads e.bits s.unp = some u →
      exec (.decodeBlock ch) s = .next (State.returning .fail (State.afterBlockError .badCategory ch e.sym
        { s with unp := u, coef := s.coef.set ch (Vector.replicate 64 0) })))

/-- R203 for one block, over all tables and all coefficients: what ENCODE_BLOCK writes without an error, DECODE_BLOCK with the
same well-formed tables and the same predictor reads back exactly, bit for bit, restoring coefficients and predictor. The
premise on the difference holds of every state of a run (R176). -/
def Obligations.BlockRoundTrip : Prop :=
  ∀ (s d s' : State) (ch : Chan) (w : List Bool) (u : Unpacker),
    (s.dcTable ch).wf → (s.dcTable ch).valid = true → (s.acTable ch).wf → (s.acTable ch).valid = true →
    d.dcTable ch = s.dcTable ch → d.acTable ch = s.acTable ch → d.pred[ch] = s.pred[ch] →
    ((s.coef[ch][(0 : Fin 64)]).toInt - (s.pred[ch]).toInt).natAbs ≤ 65535 →
    s.packer.wf → exec (.encodeBlock ch) s = .next (State.returning .ok s') →
    s'.packer.bits = s.packer.bits ++ w → Unpacker.reads w d.unp = some u →
    exec (.decodeBlock ch) d = .next (State.returning .ok
      { d with unp := u, coef := d.coef.set ch s.coef[ch], pred := d.pred.set ch s.coef[ch][(0 : Fin 64)] })

/-- R203 for a whole scan: when the MCUs of a scan encode with no event but the hand-off (so with no EncodeError), the bytes
handed off, sent as CDATA to a CORE in the state in which the scan began, decode with no error to exactly these MCUs,
dequantized, in order, and then SCANDONE; `MARKER` stays 0. -/
def Obligations.ScanRoundTrip : Prop :=
  ∀ (s t : State) (ms : List (HalfBlock × HalfBlock × HalfBlock)) (bytes : List Byte),
    s.Inv → s.scState = .scanActive → s.count = 0 → s.params.quantOnEncode = false → s.precheckFailure true = none →
    ms.length = s.expected.toNat → encodeMcus ms s = .next t →
    t.out = s.out ++ [.scanbuf bytes s.hdr.height s.hdr.width s.hdr.filename s.hdr.frameType s.hdr.precision
      s.hdr.ss s.hdr.se s.hdr.sa] →
    ∃ d, exec (.cdata bytes) s = .next d ∧ d.status = s.status ∧ d.unp.marker = 0 ∧
      d.out = s.out ++ decodedScan s 0 ms ++ [.scandone s.expected]

/-! ## Symbols on their own (the model's registers `ch` and `k`, log entry 3) -/

/-- DCCAT run on its own, the channel and the next position in the model's latch (log entry 3; the spec keeps them inside a step,
R24, R42): as R105 and R197 say, a category 0..16 reads the difference's bits, adds it to the predictor of that channel, stores
the sum as predictor and coefficient 0, and goes to position 1; where a bit fails it is EndOfData or MarkerHit, the predictor
unchanged (R201); a category above 16 is BadCategory (R113 (5)). -/
def Obligations.DccatAddsTheDifference : Prop :=
  ∀ (s : State) (c : BitVec 5),
    (∀ (v : Int) (u : Unpacker), c.toNat ≤ 16 → v.natAbs < 2 ^ c.toNat → (c = 0 ∨ 2 ^ (c.toNat - 1) ≤ v.natAbs) →
      Unpacker.reads (msbBits (magField v c.toNat).toNat c.toNat) s.unp = some u →
      exec (.dccat c) s = .next { s with
        unp := u
        pred := s.pred.set s.latch.ch (s.pred[s.latch.ch] + BitVec.ofInt 32 v)
        coef := s.coef.set s.latch.ch (s.coef[s.latch.ch].set 0 (s.pred[s.latch.ch] + BitVec.ofInt 32 v))
        latch := { s.latch with k := 1, res := .ok } }) ∧
    (∀ (bs : List Bool) (u u' : Unpacker) (marker : Bool), c.toNat ≤ 16 → bs.length < c.toNat →
      Unpacker.reads bs s.unp = some u → u.getBit = .fail marker u' →
      exec (.dccat c) s = .next (State.returning .fail
        ((s.afterFailedRead marker u').afterBlockError u'.failure s.latch.ch u'.marker))) ∧
    (16 < c.toNat →
      exec (.dccat c) s = .next (State.returning .fail (s.afterBlockError .badCategory s.latch.ch (c.setWidth 8))))

/-- ACRS run on its own, channel and position in the model's latch (log entry 3; the spec keeps them inside a step, R24, R42): as
R106, R198 and R199 say, it skips `r` positions, reads the value's bits and stores it at `ZZ[k + r]`; beyond position 63 it is
IndexOverflow with the symbol byte, no bit read; where a bit fails it is EndOfData or MarkerHit, nothing stored (R201). -/
def Obligations.AcrsStoresTheCoefficient : Prop :=
  ∀ (s : State) (r c : BitVec 4),
    (∀ (v : Int) (u : Unpacker), s.latch.k + r.toNat ≤ 63 → v.natAbs < 2 ^ c.toNat →
      (c = 0 ∨ 2 ^ (c.toNat - 1) ≤ v.natAbs) →
      Unpacker.reads (msbBits (magField v c.toNat).toNat c.toNat) s.unp = some u →
      exec (.acrs r c) s = .next { s with
        unp := u
        coef := s.coef.set s.latch.ch (s.coef[s.latch.ch].set (zz (s.latch.k + r.toNat)) (BitVec.ofInt 32 v))
        latch := { s.latch with k := s.latch.k + r.toNat + 1, res := .ok } }) ∧
    (∀ (bs : List Bool) (u u' : Unpacker) (marker : Bool), s.latch.k + r.toNat ≤ 63 → bs.length < c.toNat →
      Unpacker.reads bs s.unp = some u → u.getBit = .fail marker u' →
      exec (.acrs r c) s = .next
        { (s.afterFailedRead marker u').afterBlockError u'.failure s.latch.ch u'.marker with
          latch := { s.latch with k := s.latch.k + r.toNat, res := .fail } }) ∧
    (63 < s.latch.k + r.toNat →
      exec (.acrs r c) s = .next { s.afterBlockError .indexOverflow s.latch.ch (BitVec.ofNat 8 (16 * r.toNat + c.toNat)) with
        latch := { s.latch with k := s.latch.k + r.toNat, res := .fail } })

/-- EOB, ZRL and ACSKIP run on their own, channel and position in the model's latch (log entry 3; the spec keeps them inside a step,
R24, R42): as R107, R108, R198 and R200 say, EOB ends the block, ZRL skips sixteen positions, ACSKIP skips `r`, stores 0 and advances by one
(beyond position 63 IndexOverflow, R199); none of them reads a bit. -/
def Obligations.BitlessSymbolsMoveThePosition : Prop :=
  ∀ s : State,
    exec .eob s = .next { s with latch := { s.latch with k := 64, res := .ok } } ∧
    exec .zrl s = .next { s with latch := { s.latch with k := s.latch.k + 16, res := .ok } } ∧
    (∀ r : BitVec 4,
      (s.latch.k + r.toNat ≤ 63 →
        exec (.acskip r) s = .next { s with
          coef := s.coef.set s.latch.ch (s.coef[s.latch.ch].set (zz (s.latch.k + r.toNat)) 0)
          latch := { s.latch with k := s.latch.k + r.toNat + 1, res := .ok } }) ∧
      (63 < s.latch.k + r.toNat →
        exec (.acskip r) s = .next { s.afterBlockError .indexOverflow s.latch.ch (BitVec.ofNat 8 (16 * r.toNat)) with
          latch := { s.latch with k := s.latch.k + r.toNat, res := .fail } }))

/-- R38: `ZZ` starts at the corner, `ZI` is its inverse, and each step stays on a diagonal (the row falls on an even one and rises
on an odd one) or goes to the next. -/
def Obligations.ZigzagIsTheDiagonalWalk : Prop :=
  zz 0 = 0 ∧ (∀ k : Fin 64, zi (zz k.val).val = k ∧ zz (zi k.val).val = k) ∧
  ∀ k : Fin 63,
    let a := (zz k.val).val
    let b := (zz (k.val + 1)).val
    (b / 8 + b % 8 = a / 8 + a % 8 ∧ (if (a / 8 + a % 8) % 2 = 0 then b / 8 + 1 = a / 8 else b / 8 = a / 8 + 1)) ∨
    b / 8 + b % 8 = a / 8 + a % 8 + 1

/-! ## Quantizer (spec/44_quantizer.md) -/

/-- R210: DEQUANTIZE multiplies each coefficient of each channel by the entry at the same natural index of the channel's table,
modulo 2^32, and so exactly whenever the product fits 32 bits, which it does for coefficients of magnitude at most 32768;
nothing else changes. It completes on every state (R17): where a component names no table slot, the table's entries are free
values (log entry 6, DESIGN CHOICE; no message gets there). -/
def Obligations.DequantizeMultiplies : Prop :=
  ∀ s : State,
    ∃ c' : Vector Block 3, exec .dequantize s = .next { s with coef := c' } ∧
      ∀ (ch : Chan) (i : Fin 64),
        c'[ch][i] = BitVec.ofInt 32 ((s.coef[ch][i]).toInt * ((s.quantTable ch)[i]).toNat) ∧
        (-2 ^ 31 ≤ (s.coef[ch][i]).toInt * ((s.quantTable ch)[i]).toNat →
          (s.coef[ch][i]).toInt * ((s.quantTable ch)[i]).toNat < 2 ^ 31 →
          (c'[ch][i]).toInt = (s.coef[ch][i]).toInt * ((s.quantTable ch)[i]).toNat) ∧
        ((s.coef[ch][i]).toInt.natAbs ≤ 32768 →
          (c'[ch][i]).toInt = (s.coef[ch][i]).toInt * ((s.quantTable ch)[i]).toNat)

/-- R211, R212: QUANTIZE divides each coefficient by its entry, rounding half away from zero; each zero entry raises one
QuantDivZero with its natural index, channel by channel in index order, and the loop goes on. Of the coefficient at a zero
entry nothing is said (spec/93_implementation_defined.md U7). It completes on every state (R17): where a component names no
table slot, the table's entries are free values (log entry 6, DESIGN CHOICE; no message gets there). -/
def Obligations.QuantizeRoundsAndLogsZeroDivisors : Prop :=
  ∀ s : State,
    ∃ (c' : Vector Block 3) (co : Vector Bool 3) (st : BitVec 6),
      exec .quantize s = .next { s with coef := c', corrupt := co, status := st, out := s.out ++ s.zeroDivisorLogs } ∧
      (∀ (ch : Chan) (i : Fin 64), (s.quantTable ch)[i] ≠ 0 →
        (c'[ch][i]).toInt = rhaz (s.coef[ch][i]).toInt ((s.quantTable ch)[i]).toNat) ∧
      (∀ ch : Chan, co[ch] = true ↔ (s.corrupt[ch] = true ∨ ∃ i : Fin 64, (s.quantTable ch)[i] = 0)) ∧
      (st = if ∃ (ch : Chan) (i : Fin 64), (s.quantTable ch)[i] = 0 then s.status ||| 0b000010#6 else s.status)

/-- R12, R213, R216: `rhaz(c, q)` is a nearest integer to `c/q`, a tie going away from zero; it is odd in `c`; and
`rhaz(c*q, q) = c`. -/
def Obligations.RhazRoundsHalfAwayFromZero : Prop :=
  ∀ (c : Int) (q : Nat), 0 < q →
    2 * (c - rhaz c q * q).natAbs ≤ q ∧
    (2 * (c - rhaz c q * q).natAbs = q → c.natAbs < (rhaz c q * q).natAbs) ∧
    rhaz (-c) q = -rhaz c q ∧ rhaz (c * q) q = c

/-! ## Pre-check, MCU, CDATA, completions, EOS (spec/45_scan_controller.md) -/

/-- R227: the pre-check passes exactly when three components are loaded and every table they name, quantization tables where
asked for, exists and is valid; when it fails, `aux` is 3 with fewer components and else the first failing channel. PRECHECK
on its own answers in the result register (log entry 3). -/
def Obligations.PrecheckVerdict : Prop :=
  ∀ (s : State) (forCdata : Bool) (q : Bool), q = (forCdata || s.params.quantOnEncode) →
    let ready : Chan → Prop := fun ch =>
      ((s.comp[ch].td).toNat < 4 ∧ (s.dcTable ch).valid = true) ∧ ((s.comp[ch].ta).toNat < 4 ∧ (s.acTable ch).valid = true) ∧
      (q = true → (s.comp[ch].tq).toNat < 4 ∧ (s.qt[slotOf (s.comp[ch].tq)]).valid = true)
    (s.precheckFailure q = none ↔ s.ncomp = 3 ∧ ∀ ch : Chan, ready ch) ∧
    (s.ncomp = 3 → (∀ ch : Chan, ready ch) → exec (.precheck forCdata) s = .next (s.returning .ok)) ∧
    (s.ncomp ≠ 3 → exec (.precheck forCdata) s = .next (State.returning .fail (s.afterFatal .missingSetup 3))) ∧
    (∀ ch : Chan, s.ncomp = 3 → ¬ ready ch → (∀ ch' : Chan, ch' < ch → ready ch') →
      exec (.precheck forCdata) s
        = .next (State.returning .fail (s.afterFatal .missingSetup (BitVec.ofNat 8 ch.val))))

/-- R227: an accepted MCU or CDATA whose pre-check fails is MissingSetup, and nothing else is done. -/
def Obligations.MissingSetupIsAViolation : Prop :=
  ∀ (s : State) (aux : Byte), s.scState = .scanActive →
    (s.precheckFailure s.params.quantOnEncode = some aux →
      ∀ y cb cr, exec (.mcu y cb cr) s = .next (s.afterFatal .missingSetup aux)) ∧
    (s.count = 0 → s.precheckFailure true = some aux →
      ∀ data, exec (.cdata data) s = .next (s.afterFatal .missingSetup aux))

/-- R211, R228, R230, R266: an accepted MCU that passes its pre-check counts one, whatever its blocks return; until `COUNT` reaches
`EXPECTED` only LOGs of EncodeErrors go out and the scan stays open; then the SCANBUF goes out, the Packer is empty and the
state Idle. The coefficients are the message's, sign-extended, and with `QUANT_ON_ENCODE` each is first divided by its entry
(at a zero entry nothing is said of it, U7), a QuantDivZero logged for each zero entry before anything else; the predictors are
the three first coefficients. Bits and bytes are those of the three ENCODE_BLOCKs of these coefficients one after another,
behind what the Packer held, finalized in the SCANBUF. Tables, components, header registers and Unpacker are unchanged. -/
def Obligations.McuEncodesAndCounts : Prop :=
  ∀ (s : State) (y cb cr : HalfBlock), s.scState = .scanActive → s.precheckFailure s.params.quantOnEncode = none →
    ∃ (t t0 t1 t2 t3 : State) (logs blockLogs : List Event), exec (.mcu y cb cr) s = .next t ∧
      t.count = s.count + 1 ∧
      logs = (if s.params.quantOnEncode then s.zeroDivisorLogs else []) ++ blockLogs ∧ blockLogs.length ≤ 3 ∧
      (∀ e ∈ blockLogs, ∃ c ch aux, e = .log c (some ch) s.count aux ∧ c.kind = .encode ∧ c ≠ .quantDivZero) ∧
      (t.status = if logs = [] then s.status else s.status ||| 0b000010#6) ∧
      (∀ ch : Chan, t.corrupt[ch] = true ↔ ∃ c aux, Event.log c (some ch) s.count aux ∈ logs) ∧
      exec (.encodeBlock 0) { s with coef := t.coef } = .next t0 ∧ exec (.encodeBlock 1) t0 = .next t1 ∧
      exec (.encodeBlock 2) t1 = .next t2 ∧ exec .finalize t2 = .next t3 ∧
      s.packer.obuf <+: t2.packer.obuf ∧ (s.packer.wf → t2.packer.wf ∧ s.packer.bits <+: t2.packer.bits) ∧
      (s.count + 1 ≠ s.expected → t.scState = .scanActive ∧ t.out = s.out ++ logs ∧ t.packer = t2.packer) ∧
      (s.count + 1 = s.expected → t.scState = .idle ∧ t.packer = Packer.reset ∧
        t.out = s.out ++ logs ++ [.scanbuf t3.packer.obuf s.hdr.height s.hdr.width s.hdr.filename s.hdr.frameType
          s.hdr.precision s.hdr.ss s.hdr.se s.hdr.sa]) ∧
      (∀ (ch : Chan) (i : Fin 64),
        (s.params.quantOnEncode = false → t.coef[ch][i] = (((#v[y, cb, cr] : Vector HalfBlock 3)[ch])[i]).signExtend 32) ∧
        (s.params.quantOnEncode = true → (s.quantTable ch)[i] ≠ 0 →
          (t.coef[ch][i]).toInt = rhaz (((#v[y, cb, cr] : Vector HalfBlock 3)[ch])[i]).toInt ((s.quantTable ch)[i]).toNat)) ∧
      (∀ ch : Chan, t.pred[ch] = t.coef[ch][(0 : Fin 64)]) ∧
      t = { s with scState := t.scState, count := t.count, pred := t.pred, coef := t.coef, status := t.status,
                   corrupt := t.corrupt, packer := t.packer, out := t.out }

/-- R229, R231: an accepted CDATA that passes its pre-check decodes all `EXPECTED` MCUs, whatever the data: one BLOCKS event for
each, numbered from 0, LOGs of DecodeErrors between them, then SCANDONE, and Idle. Tables, components, header registers and
Packer are unchanged. -/
def Obligations.CdataDecodesTheWholeScan : Prop :=
  ∀ (s : State) (data : List Byte), s.scState = .scanActive → s.count = 0 → s.precheckFailure true = none →
    ∃ (t : State) (evs : List Event), exec (.cdata data) s = .next t ∧
      t.scState = .idle ∧ t.count = s.expected ∧ t.unp.ibuf = data ∧
      t.out = s.out ++ evs ++ [.scandone s.expected] ∧
      evs.filterMap blocksIndex = (List.range s.expected.toNat).map (BitVec.ofNat 32) ∧
      (∀ e ∈ evs, (blocksIndex e).isSome = true ∨ ∃ c ch index aux, e = .log c (some ch) index aux ∧ c.kind = .decode) ∧
      t = { s with scState := t.scState, count := t.count, pred := t.pred, coef := t.coef, status := t.status,
                   corrupt := t.corrupt, unp := t.unp, out := t.out }

/-- R230: COMPLETE_ENC finalizes, hands off the bytes with the header registers, empties the Packer and returns to Idle. -/
def Obligations.CompleteEncHandsOff : Prop :=
  ∀ s : State,
    exec .completeEnc s = .next { s with
      scState := .idle
      packer := { obuf := [], cur := 0, nbits := 0 }
      out := s.out ++ [.scanbuf
        (let b := s.packer.cur ||| BitVec.ofNat 8 (2 ^ (8 - s.packer.nbits.val) - 1)
         if s.packer.nbits = 0 then s.packer.obuf
         else if b = 0xFF then s.packer.obuf ++ [0xFF, 0x00] else s.packer.obuf ++ [b])
        s.hdr.height s.hdr.width s.hdr.filename s.hdr.frameType s.hdr.precision s.hdr.ss s.hdr.se s.hdr.sa] }

/-- R231: COMPLETE_DEC emits SCANDONE and returns to Idle; the Unpacker and `MARKER` stay. -/
def Obligations.CompleteDecSignals : Prop :=
  ∀ s : State, exec .completeDec s = .next { s with scState := .idle, out := s.out ++ [.scandone s.expected] }

/-- R232: EOS in Idle emits EOS and enters Exited; in ScanActive it also abandons the scan: `ABN`, both cursors restarted. -/
def Obligations.EosClosesTheStream : Prop :=
  ∀ s : State,
    (s.scState = .idle → exec .eos s = .next { s with scState := .exited, out := s.out ++ [.eos] }) ∧
    (s.scState = .scanActive → exec .eos s = .next { s with
      scState := .exited
      status := s.status ||| 0b100000#6
      packer := { obuf := [], cur := 0, nbits := 0 }
      unp := { ibuf := [], ipos := 0, ibit := 0, eoseg := false, marker := 0 }
      out := s.out ++ [.eos] })

/-! ## Whole-machine rules -/

/-- R44, R300: the values power-on reset gives. (What the spec leaves unspecified is not stated: log entry 7.) -/
def Obligations.ResetIsPowerOn : Prop :=
  let s := State.reset
  s.scState = .idle ∧ s.count = 0 ∧ s.expected = 0 ∧ s.pred = #v[0, 0, 0] ∧ s.status = 0 ∧ s.corrupt = #v[false, false, false] ∧
  s.unp.marker = 0 ∧ s.hdr.valid = false ∧ s.ncomp = 0 ∧ (∀ t : SlotId, (s.qt[t]).valid = false) ∧
  (∀ (cls : HuffClass) (t : SlotId), (s.huff cls t).valid = false) ∧
  s.packer.obuf = [] ∧ s.packer.cur = 0 ∧ s.packer.nbits = 0 ∧
  s.unp.ibuf = [] ∧ s.unp.ipos = 0 ∧ s.unp.ibit = 0 ∧ s.unp.eoseg = false

/-- The invariant holds after power-on reset, for both values of `QUANT_ON_ENCODE` and any records at the input port. -/
def Obligations.ResetSatisfiesInvariant : Prop :=
  ∀ (q : Bool) (records : List (List Byte)),
    State.Inv { State.reset with params := { quantOnEncode := q }, inp := records }

/-- Every step keeps the invariant (R24, R26, R30, R34 to R37, R39, R40, R81, R176, R224, R230, R272; its parts are named in
`State.Inv`). -/
def Obligations.StepKeepsInvariant : Prop := ∀ s t : State, s.Inv → step s = .next t → t.Inv

/-- R27: a `STATUS` flag, once set, is cleared by no step, of no instruction. -/
def Obligations.StatusFlagsAreSticky : Prop :=
  ∀ (s t : State) (f : Fin 6), step s = .next t → s.status.getLsbD f.val = true → t.status.getLsbD f.val = true

/-- R78, R243: events are only ever appended, and no step loses or reorders one. -/
def Obligations.EventsAreOnlyAppended : Prop :=
  ∀ s t : State, step s = .next t → s.out <+: t.out

/-- R234, R273: no run of the input port leaves Halted or Exited; no register changes there, only EOS events go out, and what is
left at the port is the end of what waited there. That a record of unknown kind is dropped there too, with no LOG, is the
reading of log entry 17 (DEDUCED: R99 says otherwise). -/
def Obligations.OnlyResetLeavesATerminalState : Prop :=
  ∀ (n : Nat) (s t : State), s.issue = none → (s.scState = .halted ∨ s.scState = .exited) →
    Host.Core.run Sys2Proof.core n s = .next t →
    ∃ (m : Nat) (rest : List (List Byte)), t = { s with inp := rest, out := s.out ++ List.replicate m .eos } ∧
      rest <:+ s.inp ∧ (s.scState = .exited → m = 0)

/-- R81, R312: from the first MCU of a scan to its completion no step changes a table or the contents of a component slot. -/
def Obligations.TablesAreFrozenInAScan : Prop :=
  ∀ s t : State, s.issue = none → s.scState = .scanActive → s.count ≠ 0 → step s = .next t →
    t.qt = s.qt ∧ t.htDc = s.htDc ∧ t.htAc = s.htAc ∧ t.comp = s.comp

/-- R22, R33: `ID`, `H` and `V` of a component slot are read by no rule: a message on a state and on the same state with these
fields forgotten gives the same state, these fields forgotten. -/
def Obligations.SamplingFactorsAreNeverRead : Prop :=
  ∀ (i : Instr) (s t : State), i.layer = .message → exec i s = .next t →
    ∃ t', exec i s.forgetSampling = .next t' ∧ t'.forgetSampling = t.forgetSampling
end

