-- ==== Sys2Proof/Laws/State.lean ====
section
/-! SUPPORT. One lemma per field per named update of State, true by rfl: what each update writes and what it leaves. -/

namespace Sys2Proof.Machine

open Sys2Proof

/-! ## setFlag -/

@[simp] theorem State.setFlag_params (s : State) (f : BitVec 6) : (s.setFlag f).params = s.params := rfl
@[simp] theorem State.setFlag_scState (s : State) (f : BitVec 6) : (s.setFlag f).scState = s.scState := rfl
@[simp] theorem State.setFlag_expected (s : State) (f : BitVec 6) : (s.setFlag f).expected = s.expected := rfl
@[simp] theorem State.setFlag_count (s : State) (f : BitVec 6) : (s.setFlag f).count = s.count := rfl
@[simp] theorem State.setFlag_pred (s : State) (f : BitVec 6) : (s.setFlag f).pred = s.pred := rfl
@[simp] theorem State.setFlag_coef (s : State) (f : BitVec 6) : (s.setFlag f).coef = s.coef := rfl
@[simp] theorem State.setFlag_status (s : State) (f : BitVec 6) : (s.setFlag f).status = s.status ||| f := rfl
@[simp] theorem State.setFlag_corrupt (s : State) (f : BitVec 6) : (s.setFlag f).corrupt = s.corrupt := rfl
@[simp] theorem State.setFlag_hdr (s : State) (f : BitVec 6) : (s.setFlag f).hdr = s.hdr := rfl
@[simp] theorem State.setFlag_ncomp (s : State) (f : BitVec 6) : (s.setFlag f).ncomp = s.ncomp := rfl
@[simp] theorem State.setFlag_comp (s : State) (f : BitVec 6) : (s.setFlag f).comp = s.comp := rfl
@[simp] theorem State.setFlag_qt (s : State) (f : BitVec 6) : (s.setFlag f).qt = s.qt := rfl
@[simp] theorem State.setFlag_htDc (s : State) (f : BitVec 6) : (s.setFlag f).htDc = s.htDc := rfl
@[simp] theorem State.setFlag_htAc (s : State) (f : BitVec 6) : (s.setFlag f).htAc = s.htAc := rfl
@[simp] theorem State.setFlag_packer (s : State) (f : BitVec 6) : (s.setFlag f).packer = s.packer := rfl
@[simp] theorem State.setFlag_unp (s : State) (f : BitVec 6) : (s.setFlag f).unp = s.unp := rfl
@[simp] theorem State.setFlag_inp (s : State) (f : BitVec 6) : (s.setFlag f).inp = s.inp := rfl
@[simp] theorem State.setFlag_out (s : State) (f : BitVec 6) : (s.setFlag f).out = s.out := rfl
@[simp] theorem State.setFlag_issue (s : State) (f : BitVec 6) : (s.setFlag f).issue = s.issue := rfl
@[simp] theorem State.setFlag_latch (s : State) (f : BitVec 6) : (s.setFlag f).latch = s.latch := rfl
@[simp] theorem State.setFlag_freeIx (s : State) (f : BitVec 6) : (s.setFlag f).freeIx = s.freeIx := rfl

/-! ## setCorrupt -/

@[simp] theorem State.setCorrupt_params (s : State) (ch : Chan) : (s.setCorrupt ch).params = s.params := rfl
@[simp] theorem State.setCorrupt_scState (s : State) (ch : Chan) : (s.setCorrupt ch).scState = s.scState := rfl
@[simp] theorem State.setCorrupt_expected (s : State) (ch : Chan) : (s.setCorrupt ch).expected = s.expected := rfl
@[simp] theorem State.setCorrupt_count (s : State) (ch : Chan) : (s.setCorrupt ch).count = s.count := rfl
@[simp] theorem State.setCorrupt_pred (s : State) (ch : Chan) : (s.setCorrupt ch).pred = s.pred := rfl
@[simp] theorem State.setCorrupt_coef (s : State) (ch : Chan) : (s.setCorrupt ch).coef = s.coef := rfl
@[simp] theorem State.setCorrupt_status (s : State) (ch : Chan) : (s.setCorrupt ch).status = s.status := rfl
@[simp] theorem State.setCorrupt_corrupt (s : State) (ch : Chan) : (s.setCorrupt ch).corrupt = s.corrupt.set ch true := rfl
@[simp] theorem State.setCorrupt_hdr (s : State) (ch : Chan) : (s.setCorrupt ch).hdr = s.hdr := rfl
@[simp] theorem State.setCorrupt_ncomp (s : State) (ch : Chan) : (s.setCorrupt ch).ncomp = s.ncomp := rfl
@[simp] theorem State.setCorrupt_comp (s : State) (ch : Chan) : (s.setCorrupt ch).comp = s.comp := rfl
@[simp] theorem State.setCorrupt_qt (s : State) (ch : Chan) : (s.setCorrupt ch).qt = s.qt := rfl
@[simp] theorem State.setCorrupt_htDc (s : State) (ch : Chan) : (s.setCorrupt ch).htDc = s.htDc := rfl
@[simp] theorem State.setCorrupt_htAc (s : State) (ch : Chan) : (s.setCorrupt ch).htAc = s.htAc := rfl
@[simp] theorem State.setCorrupt_packer (s : State) (ch : Chan) : (s.setCorrupt ch).packer = s.packer := rfl
@[simp] theorem State.setCorrupt_unp (s : State) (ch : Chan) : (s.setCorrupt ch).unp = s.unp := rfl
@[simp] theorem State.setCorrupt_inp (s : State) (ch : Chan) : (s.setCorrupt ch).inp = s.inp := rfl
@[simp] theorem State.setCorrupt_out (s : State) (ch : Chan) : (s.setCorrupt ch).out = s.out := rfl
@[simp] theorem State.setCorrupt_issue (s : State) (ch : Chan) : (s.setCorrupt ch).issue = s.issue := rfl
@[simp] theorem State.setCorrupt_latch (s : State) (ch : Chan) : (s.setCorrupt ch).latch = s.latch := rfl
@[simp] theorem State.setCorrupt_freeIx (s : State) (ch : Chan) : (s.setCorrupt ch).freeIx = s.freeIx := rfl

/-! ## clearCorrupt -/

@[simp] theorem State.clearCorrupt_params (s : State) : (s.clearCorrupt).params = s.params := rfl
@[simp] theorem State.clearCorrupt_scState (s : State) : (s.clearCorrupt).scState = s.scState := rfl
@[simp] theorem State.clearCorrupt_expected (s : State) : (s.clearCorrupt).expected = s.expected := rfl
@[simp] theorem State.clearCorrupt_count (s : State) : (s.clearCorrupt).count = s.count := rfl
@[simp] theorem State.clearCorrupt_pred (s : State) : (s.clearCorrupt).pred = s.pred := rfl
@[simp] theorem State.clearCorrupt_coef (s : State) : (s.clearCorrupt).coef = s.coef := rfl
@[simp] theorem State.clearCorrupt_status (s : State) : (s.clearCorrupt).status = s.status := rfl
@[simp] theorem State.clearCorrupt_corrupt (s : State) : (s.clearCorrupt).corrupt = Vector.replicate 3 false := rfl
@[simp] theorem State.clearCorrupt_hdr (s : State) : (s.clearCorrupt).hdr = s.hdr := rfl
@[simp] theorem State.clearCorrupt_ncomp (s : State) : (s.clearCorrupt).ncomp = s.ncomp := rfl
@[simp] theorem State.clearCorrupt_comp (s : State) : (s.clearCorrupt).comp = s.comp := rfl
@[simp] theorem State.clearCorrupt_qt (s : State) : (s.clearCorrupt).qt = s.qt := rfl
@[simp] theorem State.clearCorrupt_htDc (s : State) : (s.clearCorrupt).htDc = s.htDc := rfl
@[simp] theorem State.clearCorrupt_htAc (s : State) : (s.clearCorrupt).htAc = s.htAc := rfl
@[simp] theorem State.clearCorrupt_packer (s : State) : (s.clearCorrupt).packer = s.packer := rfl
@[simp] theorem State.clearCorrupt_unp (s : State) : (s.clearCorrupt).unp = s.unp := rfl
@[simp] theorem State.clearCorrupt_inp (s : State) : (s.clearCorrupt).inp = s.inp := rfl
@[simp] theorem State.clearCorrupt_out (s : State) : (s.clearCorrupt).out = s.out := rfl
@[simp] theorem State.clearCorrupt_issue (s : State) : (s.clearCorrupt).issue = s.issue := rfl
@[simp] theorem State.clearCorrupt_latch (s : State) : (s.clearCorrupt).latch = s.latch := rfl
@[simp] theorem State.clearCorrupt_freeIx (s : State) : (s.clearCorrupt).freeIx = s.freeIx := rfl

/-! ## emit -/

@[simp] theorem State.emit_params (s : State) (e : Event) : (s.emit e).params = s.params := rfl
@[simp] theorem State.emit_scState (s : State) (e : Event) : (s.emit e).scState = s.scState := rfl
@[simp] theorem State.emit_expected (s : State) (e : Event) : (s.emit e).expected = s.expected := rfl
@[simp] theorem State.emit_count (s : State) (e : Event) : (s.emit e).count = s.count := rfl
@[simp] theorem State.emit_pred (s : State) (e : Event) : (s.emit e).pred = s.pred := rfl
@[simp] theorem State.emit_coef (s : State) (e : Event) : (s.emit e).coef = s.coef := rfl
@[simp] theorem State.emit_status (s : State) (e : Event) : (s.emit e).status = s.status := rfl
@[simp] theorem State.emit_corrupt (s : State) (e : Event) : (s.emit e).corrupt = s.corrupt := rfl
@[simp] theorem State.emit_hdr (s : State) (e : Event) : (s.emit e).hdr = s.hdr := rfl
@[simp] theorem State.emit_ncomp (s : State) (e : Event) : (s.emit e).ncomp = s.ncomp := rfl
@[simp] theorem State.emit_comp (s : State) (e : Event) : (s.emit e).comp = s.comp := rfl
@[simp] theorem State.emit_qt (s : State) (e : Event) : (s.emit e).qt = s.qt := rfl
@[simp] theorem State.emit_htDc (s : State) (e : Event) : (s.emit e).htDc = s.htDc := rfl
@[simp] theorem State.emit_htAc (s : State) (e : Event) : (s.emit e).htAc = s.htAc := rfl
@[simp] theorem State.emit_packer (s : State) (e : Event) : (s.emit e).packer = s.packer := rfl
@[simp] theorem State.emit_unp (s : State) (e : Event) : (s.emit e).unp = s.unp := rfl
@[simp] theorem State.emit_inp (s : State) (e : Event) : (s.emit e).inp = s.inp := rfl
@[simp] theorem State.emit_out (s : State) (e : Event) : (s.emit e).out = s.out ++ [e] := rfl
@[simp] theorem State.emit_issue (s : State) (e : Event) : (s.emit e).issue = s.issue := rfl
@[simp] theorem State.emit_latch (s : State) (e : Event) : (s.emit e).latch = s.latch := rfl
@[simp] theorem State.emit_freeIx (s : State) (e : Event) : (s.emit e).freeIx = s.freeIx := rfl

/-! ## putBits -/

@[simp] theorem State.putBits_params (s : State) (v n : Nat) : (s.putBits v n).params = s.params := rfl
@[simp] theorem State.putBits_scState (s : State) (v n : Nat) : (s.putBits v n).scState = s.scState := rfl
@[simp] theorem State.putBits_expected (s : State) (v n : Nat) : (s.putBits v n).expected = s.expected := rfl
@[simp] theorem State.putBits_count (s : State) (v n : Nat) : (s.putBits v n).count = s.count := rfl
@[simp] theorem State.putBits_pred (s : State) (v n : Nat) : (s.putBits v n).pred = s.pred := rfl
@[simp] theorem State.putBits_coef (s : State) (v n : Nat) : (s.putBits v n).coef = s.coef := rfl
@[simp] theorem State.putBits_status (s : State) (v n : Nat) : (s.putBits v n).status = s.status := rfl
@[simp] theorem State.putBits_corrupt (s : State) (v n : Nat) : (s.putBits v n).corrupt = s.corrupt := rfl
@[simp] theorem State.putBits_hdr (s : State) (v n : Nat) : (s.putBits v n).hdr = s.hdr := rfl
@[simp] theorem State.putBits_ncomp (s : State) (v n : Nat) : (s.putBits v n).ncomp = s.ncomp := rfl
@[simp] theorem State.putBits_comp (s : State) (v n : Nat) : (s.putBits v n).comp = s.comp := rfl
@[simp] theorem State.putBits_qt (s : State) (v n : Nat) : (s.putBits v n).qt = s.qt := rfl
@[simp] theorem State.putBits_htDc (s : State) (v n : Nat) : (s.putBits v n).htDc = s.htDc := rfl
@[simp] theorem State.putBits_htAc (s : State) (v n : Nat) : (s.putBits v n).htAc = s.htAc := rfl
@[simp] theorem State.putBits_packer (s : State) (v n : Nat) : (s.putBits v n).packer = s.packer.putBits v n := rfl
@[simp] theorem State.putBits_unp (s : State) (v n : Nat) : (s.putBits v n).unp = s.unp := rfl
@[simp] theorem State.putBits_inp (s : State) (v n : Nat) : (s.putBits v n).inp = s.inp := rfl
@[simp] theorem State.putBits_out (s : State) (v n : Nat) : (s.putBits v n).out = s.out := rfl
@[simp] theorem State.putBits_issue (s : State) (v n : Nat) : (s.putBits v n).issue = s.issue := rfl
@[simp] theorem State.putBits_latch (s : State) (v n : Nat) : (s.putBits v n).latch = s.latch := rfl
@[simp] theorem State.putBits_freeIx (s : State) (v n : Nat) : (s.putBits v n).freeIx = s.freeIx := rfl

/-! ## packerRestart -/

@[simp] theorem State.packerRestart_params (s : State) : (s.packerRestart).params = s.params := rfl
@[simp] theorem State.packerRestart_scState (s : State) : (s.packerRestart).scState = s.scState := rfl
@[simp] theorem State.packerRestart_expected (s : State) : (s.packerRestart).expected = s.expected := rfl
@[simp] theorem State.packerRestart_count (s : State) : (s.packerRestart).count = s.count := rfl
@[simp] theorem State.packerRestart_pred (s : State) : (s.packerRestart).pred = s.pred := rfl
@[simp] theorem State.packerRestart_coef (s : State) : (s.packerRestart).coef = s.coef := rfl
@[simp] theorem State.packerRestart_status (s : State) : (s.packerRestart).status = s.status := rfl
@[simp] theorem State.packerRestart_corrupt (s : State) : (s.packerRestart).corrupt = s.corrupt := rfl
@[simp] theorem State.packerRestart_hdr (s : State) : (s.packerRestart).hdr = s.hdr := rfl
@[simp] theorem State.packerRestart_ncomp (s : State) : (s.packerRestart).ncomp = s.ncomp := rfl
@[simp] theorem State.packerRestart_comp (s : State) : (s.packerRestart).comp = s.comp := rfl
@[simp] theorem State.packerRestart_qt (s : State) : (s.packerRestart).qt = s.qt := rfl
@[simp] theorem State.packerRestart_htDc (s : State) : (s.packerRestart).htDc = s.htDc := rfl
@[simp] theorem State.packerRestart_htAc (s : State) : (s.packerRestart).htAc = s.htAc := rfl
@[simp] theorem State.packerRestart_packer (s : State) : (s.packerRestart).packer = Packer.reset := rfl
@[simp] theorem State.packerRestart_unp (s : State) : (s.packerRestart).unp = s.unp := rfl
@[simp] theorem State.packerRestart_inp (s : State) : (s.packerRestart).inp = s.inp := rfl
@[simp] theorem State.packerRestart_out (s : State) : (s.packerRestart).out = s.out := rfl
@[simp] theorem State.packerRestart_issue (s : State) : (s.packerRestart).issue = s.issue := rfl
@[simp] theorem State.packerRestart_latch (s : State) : (s.packerRestart).latch = s.latch := rfl
@[simp] theorem State.packerRestart_freeIx (s : State) : (s.packerRestart).freeIx = s.freeIx := rfl

/-! ## unpackerRestart -/

@[simp] theorem State.unpackerRestart_params (s : State) : (s.unpackerRestart).params = s.params := rfl
@[simp] theorem State.unpackerRestart_scState (s : State) : (s.unpackerRestart).scState = s.scState := rfl
@[simp] theorem State.unpackerRestart_expected (s : State) : (s.unpackerRestart).expected = s.expected := rfl
@[simp] theorem State.unpackerRestart_count (s : State) : (s.unpackerRestart).count = s.count := rfl
@[simp] theorem State.unpackerRestart_pred (s : State) : (s.unpackerRestart).pred = s.pred := rfl
@[simp] theorem State.unpackerRestart_coef (s : State) : (s.unpackerRestart).coef = s.coef := rfl
@[simp] theorem State.unpackerRestart_status (s : State) : (s.unpackerRestart).status = s.status := rfl
@[simp] theorem State.unpackerRestart_corrupt (s : State) : (s.unpackerRestart).corrupt = s.corrupt := rfl
@[simp] theorem State.unpackerRestart_hdr (s : State) : (s.unpackerRestart).hdr = s.hdr := rfl
@[simp] theorem State.unpackerRestart_ncomp (s : State) : (s.unpackerRestart).ncomp = s.ncomp := rfl
@[simp] theorem State.unpackerRestart_comp (s : State) : (s.unpackerRestart).comp = s.comp := rfl
@[simp] theorem State.unpackerRestart_qt (s : State) : (s.unpackerRestart).qt = s.qt := rfl
@[simp] theorem State.unpackerRestart_htDc (s : State) : (s.unpackerRestart).htDc = s.htDc := rfl
@[simp] theorem State.unpackerRestart_htAc (s : State) : (s.unpackerRestart).htAc = s.htAc := rfl
@[simp] theorem State.unpackerRestart_packer (s : State) : (s.unpackerRestart).packer = s.packer := rfl
@[simp] theorem State.unpackerRestart_unp (s : State) : (s.unpackerRestart).unp = Unpacker.reset := rfl
@[simp] theorem State.unpackerRestart_inp (s : State) : (s.unpackerRestart).inp = s.inp := rfl
@[simp] theorem State.unpackerRestart_out (s : State) : (s.unpackerRestart).out = s.out := rfl
@[simp] theorem State.unpackerRestart_issue (s : State) : (s.unpackerRestart).issue = s.issue := rfl
@[simp] theorem State.unpackerRestart_latch (s : State) : (s.unpackerRestart).latch = s.latch := rfl
@[simp] theorem State.unpackerRestart_freeIx (s : State) : (s.unpackerRestart).freeIx = s.freeIx := rfl

/-! ## setCoef -/

@[simp] theorem State.setCoef_params (s : State) (ch : Chan) (i : Fin 64) (w : Word) : (s.setCoef ch i w).params = s.params := rfl
@[simp] theorem State.setCoef_scState (s : State) (ch : Chan) (i : Fin 64) (w : Word) : (s.setCoef ch i w).scState = s.scState := rfl
@[simp] theorem State.setCoef_expected (s : State) (ch : Chan) (i : Fin 64) (w : Word) : (s.setCoef ch i w).expected = s.expected := rfl
@[simp] theorem State.setCoef_count (s : State) (ch : Chan) (i : Fin 64) (w : Word) : (s.setCoef ch i w).count = s.count := rfl
@[simp] theorem State.setCoef_pred (s : State) (ch : Chan) (i : Fin 64) (w : Word) : (s.setCoef ch i w).pred = s.pred := rfl
@[simp] theorem State.setCoef_coef (s : State) (ch : Chan) (i : Fin 64) (w : Word) : (s.setCoef ch i w).coef = s.coef.set ch (s.coef[ch].set i w) := rfl
@[simp] theorem State.setCoef_status (s : State) (ch : Chan) (i : Fin 64) (w : Word) : (s.setCoef ch i w).status = s.status := rfl
@[simp] theorem State.setCoef_corrupt (s : State) (ch : Chan) (i : Fin 64) (w : Word) : (s.setCoef ch i w).corrupt = s.corrupt := rfl
@[simp] theorem State.setCoef_hdr (s : State) (ch : Chan) (i : Fin 64) (w : Word) : (s.setCoef ch i w).hdr = s.hdr := rfl
@[simp] theorem State.setCoef_ncomp (s : State) (ch : Chan) (i : Fin 64) (w : Word) : (s.setCoef ch i w).ncomp = s.ncomp := rfl
@[simp] theorem State.setCoef_comp (s : State) (ch : Chan) (i : Fin 64) (w : Word) : (s.setCoef ch i w).comp = s.comp := rfl
@[simp] theorem State.setCoef_qt (s : State) (ch : Chan) (i : Fin 64) (w : Word) : (s.setCoef ch i w).qt = s.qt := rfl
@[simp] theorem State.setCoef_htDc (s : State) (ch : Chan) (i : Fin 64) (w : Word) : (s.setCoef ch i w).htDc = s.htDc := rfl
@[simp] theorem State.setCoef_htAc (s : State) (ch : Chan) (i : Fin 64) (w : Word) : (s.setCoef ch i w).htAc = s.htAc := rfl
@[simp] theorem State.setCoef_packer (s : State) (ch : Chan) (i : Fin 64) (w : Word) : (s.setCoef ch i w).packer = s.packer := rfl
@[simp] theorem State.setCoef_unp (s : State) (ch : Chan) (i : Fin 64) (w : Word) : (s.setCoef ch i w).unp = s.unp := rfl
@[simp] theorem State.setCoef_inp (s : State) (ch : Chan) (i : Fin 64) (w : Word) : (s.setCoef ch i w).inp = s.inp := rfl
@[simp] theorem State.setCoef_out (s : State) (ch : Chan) (i : Fin 64) (w : Word) : (s.setCoef ch i w).out = s.out := rfl
@[simp] theorem State.setCoef_issue (s : State) (ch : Chan) (i : Fin 64) (w : Word) : (s.setCoef ch i w).issue = s.issue := rfl
@[simp] theorem State.setCoef_latch (s : State) (ch : Chan) (i : Fin 64) (w : Word) : (s.setCoef ch i w).latch = s.latch := rfl
@[simp] theorem State.setCoef_freeIx (s : State) (ch : Chan) (i : Fin 64) (w : Word) : (s.setCoef ch i w).freeIx = s.freeIx := rfl

/-! ## setBlock -/

@[simp] theorem State.setBlock_params (s : State) (ch : Chan) (b : Block) : (s.setBlock ch b).params = s.params := rfl
@[simp] theorem State.setBlock_scState (s : State) (ch : Chan) (b : Block) : (s.setBlock ch b).scState = s.scState := rfl
@[simp] theorem State.setBlock_expected (s : State) (ch : Chan) (b : Block) : (s.setBlock ch b).expected = s.expected := rfl
@[simp] theorem State.setBlock_count (s : State) (ch : Chan) (b : Block) : (s.setBlock ch b).count = s.count := rfl
@[simp] theorem State.setBlock_pred (s : State) (ch : Chan) (b : Block) : (s.setBlock ch b).pred = s.pred := rfl
@[simp] theorem State.setBlock_coef (s : State) (ch : Chan) (b : Block) : (s.setBlock ch b).coef = s.coef.set ch b := rfl
@[simp] theorem State.setBlock_status (s : State) (ch : Chan) (b : Block) : (s.setBlock ch b).status = s.status := rfl
@[simp] theorem State.setBlock_corrupt (s : State) (ch : Chan) (b : Block) : (s.setBlock ch b).corrupt = s.corrupt := rfl
@[simp] theorem State.setBlock_hdr (s : State) (ch : Chan) (b : Block) : (s.setBlock ch b).hdr = s.hdr := rfl
@[simp] theorem State.setBlock_ncomp (s : State) (ch : Chan) (b : Block) : (s.setBlock ch b).ncomp = s.ncomp := rfl
@[simp] theorem State.setBlock_comp (s : State) (ch : Chan) (b : Block) : (s.setBlock ch b).comp = s.comp := rfl
@[simp] theorem State.setBlock_qt (s : State) (ch : Chan) (b : Block) : (s.setBlock ch b).qt = s.qt := rfl
@[simp] theorem State.setBlock_htDc (s : State) (ch : Chan) (b : Block) : (s.setBlock ch b).htDc = s.htDc := rfl
@[simp] theorem State.setBlock_htAc (s : State) (ch : Chan) (b : Block) : (s.setBlock ch b).htAc = s.htAc := rfl
@[simp] theorem State.setBlock_packer (s : State) (ch : Chan) (b : Block) : (s.setBlock ch b).packer = s.packer := rfl
@[simp] theorem State.setBlock_unp (s : State) (ch : Chan) (b : Block) : (s.setBlock ch b).unp = s.unp := rfl
@[simp] theorem State.setBlock_inp (s : State) (ch : Chan) (b : Block) : (s.setBlock ch b).inp = s.inp := rfl
@[simp] theorem State.setBlock_out (s : State) (ch : Chan) (b : Block) : (s.setBlock ch b).out = s.out := rfl
@[simp] theorem State.setBlock_issue (s : State) (ch : Chan) (b : Block) : (s.setBlock ch b).issue = s.issue := rfl
@[simp] theorem State.setBlock_latch (s : State) (ch : Chan) (b : Block) : (s.setBlock ch b).latch = s.latch := rfl
@[simp] theorem State.setBlock_freeIx (s : State) (ch : Chan) (b : Block) : (s.setBlock ch b).freeIx = s.freeIx := rfl

/-! ## setPred -/

@[simp] theorem State.setPred_params (s : State) (ch : Chan) (w : Word) : (s.setPred ch w).params = s.params := rfl
@[simp] theorem State.setPred_scState (s : State) (ch : Chan) (w : Word) : (s.setPred ch w).scState = s.scState := rfl
@[simp] theorem State.setPred_expected (s : State) (ch : Chan) (w : Word) : (s.setPred ch w).expected = s.expected := rfl
@[simp] theorem State.setPred_count (s : State) (ch : Chan) (w : Word) : (s.setPred ch w).count = s.count := rfl
@[simp] theorem State.setPred_pred (s : State) (ch : Chan) (w : Word) : (s.setPred ch w).pred = s.pred.set ch w := rfl
@[simp] theorem State.setPred_coef (s : State) (ch : Chan) (w : Word) : (s.setPred ch w).coef = s.coef := rfl
@[simp] theorem State.setPred_status (s : State) (ch : Chan) (w : Word) : (s.setPred ch w).status = s.status := rfl
@[simp] theorem State.setPred_corrupt (s : State) (ch : Chan) (w : Word) : (s.setPred ch w).corrupt = s.corrupt := rfl
@[simp] theorem State.setPred_hdr (s : State) (ch : Chan) (w : Word) : (s.setPred ch w).hdr = s.hdr := rfl
@[simp] theorem State.setPred_ncomp (s : State) (ch : Chan) (w : Word) : (s.setPred ch w).ncomp = s.ncomp := rfl
@[simp] theorem State.setPred_comp (s : State) (ch : Chan) (w : Word) : (s.setPred ch w).comp = s.comp := rfl
@[simp] theorem State.setPred_qt (s : State) (ch : Chan) (w : Word) : (s.setPred ch w).qt = s.qt := rfl
@[simp] theorem State.setPred_htDc (s : State) (ch : Chan) (w : Word) : (s.setPred ch w).htDc = s.htDc := rfl
@[simp] theorem State.setPred_htAc (s : State) (ch : Chan) (w : Word) : (s.setPred ch w).htAc = s.htAc := rfl
@[simp] theorem State.setPred_packer (s : State) (ch : Chan) (w : Word) : (s.setPred ch w).packer = s.packer := rfl
@[simp] theorem State.setPred_unp (s : State) (ch : Chan) (w : Word) : (s.setPred ch w).unp = s.unp := rfl
@[simp] theorem State.setPred_inp (s : State) (ch : Chan) (w : Word) : (s.setPred ch w).inp = s.inp := rfl
@[simp] theorem State.setPred_out (s : State) (ch : Chan) (w : Word) : (s.setPred ch w).out = s.out := rfl
@[simp] theorem State.setPred_issue (s : State) (ch : Chan) (w : Word) : (s.setPred ch w).issue = s.issue := rfl
@[simp] theorem State.setPred_latch (s : State) (ch : Chan) (w : Word) : (s.setPred ch w).latch = s.latch := rfl
@[simp] theorem State.setPred_freeIx (s : State) (ch : Chan) (w : Word) : (s.setPred ch w).freeIx = s.freeIx := rfl

/-! ## answer -/

@[simp] theorem State.answer_params (s : State) (r : Res) : (s.answer r).params = s.params := rfl
@[simp] theorem State.answer_scState (s : State) (r : Res) : (s.answer r).scState = s.scState := rfl
@[simp] theorem State.answer_expected (s : State) (r : Res) : (s.answer r).expected = s.expected := rfl
@[simp] theorem State.answer_count (s : State) (r : Res) : (s.answer r).count = s.count := rfl
@[simp] theorem State.answer_pred (s : State) (r : Res) : (s.answer r).pred = s.pred := rfl
@[simp] theorem State.answer_coef (s : State) (r : Res) : (s.answer r).coef = s.coef := rfl
@[simp] theorem State.answer_status (s : State) (r : Res) : (s.answer r).status = s.status := rfl
@[simp] theorem State.answer_corrupt (s : State) (r : Res) : (s.answer r).corrupt = s.corrupt := rfl
@[simp] theorem State.answer_hdr (s : State) (r : Res) : (s.answer r).hdr = s.hdr := rfl
@[simp] theorem State.answer_ncomp (s : State) (r : Res) : (s.answer r).ncomp = s.ncomp := rfl
@[simp] theorem State.answer_comp (s : State) (r : Res) : (s.answer r).comp = s.comp := rfl
@[simp] theorem State.answer_qt (s : State) (r : Res) : (s.answer r).qt = s.qt := rfl
@[simp] theorem State.answer_htDc (s : State) (r : Res) : (s.answer r).htDc = s.htDc := rfl
@[simp] theorem State.answer_htAc (s : State) (r : Res) : (s.answer r).htAc = s.htAc := rfl
@[simp] theorem State.answer_packer (s : State) (r : Res) : (s.answer r).packer = s.packer := rfl
@[simp] theorem State.answer_unp (s : State) (r : Res) : (s.answer r).unp = s.unp := rfl
@[simp] theorem State.answer_inp (s : State) (r : Res) : (s.answer r).inp = s.inp := rfl
@[simp] theorem State.answer_out (s : State) (r : Res) : (s.answer r).out = s.out := rfl
@[simp] theorem State.answer_issue (s : State) (r : Res) : (s.answer r).issue = s.issue := rfl
@[simp] theorem State.answer_latch (s : State) (r : Res) : (s.answer r).latch = { s.latch with res := r } := rfl
@[simp] theorem State.answer_freeIx (s : State) (r : Res) : (s.answer r).freeIx = s.freeIx := rfl

/-! ## release -/

@[simp] theorem State.release_params (s : State) (rest : List (List Byte)) : (s.release rest).params = s.params := rfl
@[simp] theorem State.release_scState (s : State) (rest : List (List Byte)) : (s.release rest).scState = s.scState := rfl
@[simp] theorem State.release_expected (s : State) (rest : List (List Byte)) : (s.release rest).expected = s.expected := rfl
@[simp] theorem State.release_count (s : State) (rest : List (List Byte)) : (s.release rest).count = s.count := rfl
@[simp] theorem State.release_pred (s : State) (rest : List (List Byte)) : (s.release rest).pred = s.pred := rfl
@[simp] theorem State.release_coef (s : State) (rest : List (List Byte)) : (s.release rest).coef = s.coef := rfl
@[simp] theorem State.release_status (s : State) (rest : List (List Byte)) : (s.release rest).status = s.status := rfl
@[simp] theorem State.release_corrupt (s : State) (rest : List (List Byte)) : (s.release rest).corrupt = s.corrupt := rfl
@[simp] theorem State.release_hdr (s : State) (rest : List (List Byte)) : (s.release rest).hdr = s.hdr := rfl
@[simp] theorem State.release_ncomp (s : State) (rest : List (List Byte)) : (s.release rest).ncomp = s.ncomp := rfl
@[simp] theorem State.release_comp (s : State) (rest : List (List Byte)) : (s.release rest).comp = s.comp := rfl
@[simp] theorem State.release_qt (s : State) (rest : List (List Byte)) : (s.release rest).qt = s.qt := rfl
@[simp] theorem State.release_htDc (s : State) (rest : List (List Byte)) : (s.release rest).htDc = s.htDc := rfl
@[simp] theorem State.release_htAc (s : State) (rest : List (List Byte)) : (s.release rest).htAc = s.htAc := rfl
@[simp] theorem State.release_packer (s : State) (rest : List (List Byte)) : (s.release rest).packer = s.packer := rfl
@[simp] theorem State.release_unp (s : State) (rest : List (List Byte)) : (s.release rest).unp = s.unp := rfl
@[simp] theorem State.release_inp (s : State) (rest : List (List Byte)) : (s.release rest).inp = rest := rfl
@[simp] theorem State.release_out (s : State) (rest : List (List Byte)) : (s.release rest).out = s.out := rfl
@[simp] theorem State.release_issue (s : State) (rest : List (List Byte)) : (s.release rest).issue = s.issue := rfl
@[simp] theorem State.release_latch (s : State) (rest : List (List Byte)) : (s.release rest).latch = s.latch := rfl
@[simp] theorem State.release_freeIx (s : State) (rest : List (List Byte)) : (s.release rest).freeIx = s.freeIx := rfl

/-! ## setHuff -/

@[simp] theorem State.setHuff_params (s : State) (cls : HuffClass) (t : SlotId) (h : HuffSlot) :
    (s.setHuff cls t h).params = s.params := by cases cls <;> rfl
@[simp] theorem State.setHuff_scState (s : State) (cls : HuffClass) (t : SlotId) (h : HuffSlot) :
    (s.setHuff cls t h).scState = s.scState := by cases cls <;> rfl
@[simp] theorem State.setHuff_expected (s : State) (cls : HuffClass) (t : SlotId) (h : HuffSlot) :
    (s.setHuff cls t h).expected = s.expected := by cases cls <;> rfl
@[simp] theorem State.setHuff_count (s : State) (cls : HuffClass) (t : SlotId) (h : HuffSlot) :
    (s.setHuff cls t h).count = s.count := by cases cls <;> rfl
@[simp] theorem State.setHuff_pred (s : State) (cls : HuffClass) (t : SlotId) (h : HuffSlot) :
    (s.setHuff cls t h).pred = s.pred := by cases cls <;> rfl
@[simp] theorem State.setHuff_coef (s : State) (cls : HuffClass) (t : SlotId) (h : HuffSlot) :
    (s.setHuff cls t h).coef = s.coef := by cases cls <;> rfl
@[simp] theorem State.setHuff_status (s : State) (cls : HuffClass) (t : SlotId) (h : HuffSlot) :
    (s.setHuff cls t h).status = s.status := by cases cls <;> rfl
@[simp] theorem State.setHuff_corrupt (s : State) (cls : HuffClass) (t : SlotId) (h : HuffSlot) :
    (s.setHuff cls t h).corrupt = s.corrupt := by cases cls <;> rfl
@[simp] theorem State.setHuff_hdr (s : State) (cls : HuffClass) (t : SlotId) (h : HuffSlot) :
    (s.setHuff cls t h).hdr = s.hdr := by cases cls <;> rfl
@[simp] theorem State.setHuff_ncomp (s : State) (cls : HuffClass) (t : SlotId) (h : HuffSlot) :
    (s.setHuff cls t h).ncomp = s.ncomp := by cases cls <;> rfl
@[simp] theorem State.setHuff_comp (s : State) (cls : HuffClass) (t : SlotId) (h : HuffSlot) :
    (s.setHuff cls t h).comp = s.comp := by cases cls <;> rfl
@[simp] theorem State.setHuff_qt (s : State) (cls : HuffClass) (t : SlotId) (h : HuffSlot) :
    (s.setHuff cls t h).qt = s.qt := by cases cls <;> rfl
@[simp] theorem State.setHuff_packer (s : State) (cls : HuffClass) (t : SlotId) (h : HuffSlot) :
    (s.setHuff cls t h).packer = s.packer := by cases cls <;> rfl
@[simp] theorem State.setHuff_unp (s : State) (cls : HuffClass) (t : SlotId) (h : HuffSlot) :
    (s.setHuff cls t h).unp = s.unp := by cases cls <;> rfl
@[simp] theorem State.setHuff_inp (s : State) (cls : HuffClass) (t : SlotId) (h : HuffSlot) :
    (s.setHuff cls t h).inp = s.inp := by cases cls <;> rfl
@[simp] theorem State.setHuff_out (s : State) (cls : HuffClass) (t : SlotId) (h : HuffSlot) :
    (s.setHuff cls t h).out = s.out := by cases cls <;> rfl
@[simp] theorem State.setHuff_issue (s : State) (cls : HuffClass) (t : SlotId) (h : HuffSlot) :
    (s.setHuff cls t h).issue = s.issue := by cases cls <;> rfl
@[simp] theorem State.setHuff_latch (s : State) (cls : HuffClass) (t : SlotId) (h : HuffSlot) :
    (s.setHuff cls t h).latch = s.latch := by cases cls <;> rfl
@[simp] theorem State.setHuff_freeIx (s : State) (cls : HuffClass) (t : SlotId) (h : HuffSlot) :
    (s.setHuff cls t h).freeIx = s.freeIx := by cases cls <;> rfl

/-- A slot written is the slot read. -/
@[simp] theorem State.huff_setHuff_same (s : State) (cls : HuffClass) (t : SlotId) (h : HuffSlot) :
    (s.setHuff cls t h).huff cls t = h := by
  cases cls <;> simp [State.setHuff, State.huff]

/-- Every other slot keeps its contents (R136, R137). -/
theorem State.huff_setHuff_other (s : State) {cls cls' : HuffClass} {t t' : SlotId} (h : HuffSlot)
    (hne : cls ≠ cls' ∨ t ≠ t') : (s.setHuff cls t h).huff cls' t' = s.huff cls' t' := by
  cases cls <;> cases cls' <;> simp_all [State.setHuff, State.huff, Fin.ext_iff]

/-! ## The tables a channel uses -/

/-- A table id below the number of slots names that slot (R33, R63). -/
theorem State.huffById_of_lt (s : State) (cls : HuffClass) {id : Byte} (h : id.toNat < 4) :
    s.huffById cls id = s.huff cls (slotOf id) := if_pos h

/-- Only an existing slot is valid. -/
theorem State.huffById_valid {s : State} {cls : HuffClass} {id : Byte} (h : (s.huffById cls id).valid = true) :
    id.toNat < 4 ∧ s.huffById cls id = s.huff cls (slotOf id) := by
  by_cases hid : id.toNat < 4
  · exact ⟨hid, s.huffById_of_lt cls hid⟩
  · rw [State.huffById, if_neg (show ¬ id.toNat < Config.nht from hid)] at h; cases h

theorem State.quantTable_of_lt (s : State) (ch : Chan) (h : (s.comp[ch].tq).toNat < 4) :
    s.quantTable ch = (s.qt[slotOf s.comp[ch].tq]).q := if_pos h

/-- The DC table depends on the component slots and the DC store only. -/
theorem State.dcTable_congr {s t : State} (ch : Chan) (hc : t.comp = s.comp) (hd : t.htDc = s.htDc) :
    t.dcTable ch = s.dcTable ch := by
  simp only [State.dcTable, State.huffById, State.huff, hc, hd]

/-- The AC table depends on the component slots and the AC store only. -/
theorem State.acTable_congr {s t : State} (ch : Chan) (hc : t.comp = s.comp) (ha : t.htAc = s.htAc) :
    t.acTable ch = s.acTable ch := by
  simp only [State.acTable, State.huffById, State.huff, hc, ha]

/-- The quantization table depends on the component slots and the quantization store only. -/
theorem State.quantTable_congr {s t : State} (ch : Chan) (hc : t.comp = s.comp) (hq : t.qt = s.qt) :
    t.quantTable ch = s.quantTable ch := by
  simp only [State.quantTable, hc, hq]

end Sys2Proof.Machine
end

