-- ==== Sys2Proof/Laws/BitPacker.lean ====
section
/-! SUPPORT. The Bit Packer: `OBUF` stays stuffed (R112, R151) under every operation, and grows only at its end (R61). -/

namespace Sys2Proof.Machine

open Sys2Proof

/-- Stuffed sequences compose. -/
theorem stuffed_append : ∀ {a b : List Byte}, stuffed a = true → stuffed b = true → stuffed (a ++ b) = true
  | [], _, _, hb => by simpa using hb
  | [x], b, ha, hb => by
    cases b with
    | nil => simpa using ha
    | cons y ys =>
      have hx : ¬ x = 0xFF := by simpa [stuffed] using ha
      show stuffed (x :: y :: ys) = true
      rw [stuffed, if_neg hx]; exact hb
  | x :: y :: rest, b, ha, hb => by
    show stuffed (x :: y :: (rest ++ b)) = true
    by_cases hx : x = 0xFF
    · rw [stuffed, if_pos hx, Bool.and_eq_true] at ha ⊢
      exact ⟨ha.1, stuffed_append ha.2 hb⟩
    · rw [stuffed, if_neg hx] at ha ⊢
      exact stuffed_append ha hb

/-- The data bytes of a stuffed sequence followed by another. -/
theorem unstuff_append : ∀ {a : List Byte} (b : List Byte), stuffed a = true → unstuff (a ++ b) = unstuff a ++ unstuff b
  | [], _, _ => rfl
  | [x], b, ha => by
    cases b with
    | nil => simp [unstuff]
    | cons y ys =>
      have hx : ¬ x = 0xFF := by simpa [stuffed] using ha
      show unstuff (x :: y :: ys) = [x] ++ unstuff (y :: ys)
      rw [unstuff, if_neg hx]; rfl
  | x :: y :: rest, b, ha => by
    show unstuff (x :: y :: (rest ++ b)) = unstuff (x :: y :: rest) ++ unstuff b
    by_cases hx : x = 0xFF
    · rw [stuffed, if_pos hx, Bool.and_eq_true] at ha
      rw [unstuff, if_pos hx, unstuff, if_pos hx, unstuff_append b ha.2]; rfl
    · rw [stuffed, if_neg hx] at ha
      rw [unstuff, if_neg hx, unstuff, if_neg hx]
      exact congrArg (x :: ·) (unstuff_append (a := y :: rest) b ha)

/-- What EMITBYTE appends (R151). -/
theorem Packer.emitByte_obuf (b : Byte) (p : Packer) :
    (p.emitByte b).obuf = p.obuf ++ (if b = 0xFF then [b, 0x00] else [b]) := by
  unfold Packer.emitByte; split <;> rfl

@[simp] theorem Packer.emitByte_cur (b : Byte) (p : Packer) : (p.emitByte b).cur = p.cur := by
  unfold Packer.emitByte; split <;> rfl

@[simp] theorem Packer.emitByte_nbits (b : Byte) (p : Packer) : (p.emitByte b).nbits = p.nbits := by
  unfold Packer.emitByte; split <;> rfl

/-- EMITBYTE keeps the stuffed form. -/
theorem Packer.emitByte_stuffed (b : Byte) {p : Packer} (h : stuffed p.obuf = true) :
    stuffed (p.emitByte b).obuf = true := by
  rw [Packer.emitByte_obuf]
  refine stuffed_append h ?_
  by_cases hb : b = 0xFF
  · rw [if_pos hb, stuffed, if_pos hb]; rfl
  · rw [if_neg hb]; exact bne_iff_ne.mpr hb

theorem Packer.putBit_stuffed (b : Bool) {p : Packer} (h : stuffed p.obuf = true) :
    stuffed (p.putBit b).obuf = true := by
  unfold Packer.putBit
  dsimp only
  split
  · exact Packer.emitByte_stuffed _ h
  · exact h

/-- PUTBITS keeps the stuffed form. -/
theorem Packer.putBits_stuffed (v n : Nat) {p : Packer} (h : stuffed p.obuf = true) :
    stuffed (p.putBits v n).obuf = true := by
  induction n generalizing p with
  | zero => exact h
  | succ n ih => exact ih (Packer.putBit_stuffed _ h)

/-- FINALIZE keeps the stuffed form. -/
theorem Packer.finalize_stuffed {p : Packer} (h : stuffed p.obuf = true) : stuffed p.finalize.obuf = true := by
  unfold Packer.finalize
  split
  · exact h
  · exact Packer.emitByte_stuffed _ h

/-- `OBUF` is append-only (R61): one bit. -/
theorem Packer.putBit_grows (b : Bool) (p : Packer) : p.obuf <+: (p.putBit b).obuf := by
  unfold Packer.putBit
  dsimp only
  split
  · rw [Packer.emitByte_obuf]; exact List.prefix_append _ _
  · exact List.prefix_refl _

/-- `OBUF` is append-only (R61). -/
theorem Packer.putBits_grows (v n : Nat) (p : Packer) : p.obuf <+: (p.putBits v n).obuf := by
  induction n generalizing p with
  | zero => exact List.prefix_refl _
  | succ n ih => exact (Packer.putBit_grows _ p).trans (ih _)

/-- The bits of a value are those of its high part, then those of its low part. -/
theorem Packer.putBits_succ (v n : Nat) (p : Packer) :
    p.putBits v (n + 1) = (p.putBit (v.testBit n)).putBits v n := rfl

end Sys2Proof.Machine
end

