-- ==== Sys2Proof/Laws/Errors.lean ====
section
/-! SUPPORT. What raising an error leaves alone, whatever its cause (R270 to R272): everything but `STATUS`, `CORRUPT`,
`SC_STATE` and the events. And the four things taking a message can be (R220). -/

namespace Sys2Proof.Machine

open Sys2Proof

section
variable (s : State) (k : ErrKind) (c : Cause) (ch : Option Chan) (aux : Byte)

@[simp] theorem State.markCorrupt_params : (s.markCorrupt k ch).params = s.params := by cases k <;> cases ch <;> rfl
@[simp] theorem State.markCorrupt_scState : (s.markCorrupt k ch).scState = s.scState := by cases k <;> cases ch <;> rfl
@[simp] theorem State.markCorrupt_expected : (s.markCorrupt k ch).expected = s.expected := by cases k <;> cases ch <;> rfl
@[simp] theorem State.markCorrupt_count : (s.markCorrupt k ch).count = s.count := by cases k <;> cases ch <;> rfl
@[simp] theorem State.markCorrupt_pred : (s.markCorrupt k ch).pred = s.pred := by cases k <;> cases ch <;> rfl
@[simp] theorem State.markCorrupt_coef : (s.markCorrupt k ch).coef = s.coef := by cases k <;> cases ch <;> rfl
@[simp] theorem State.markCorrupt_status : (s.markCorrupt k ch).status = s.status := by cases k <;> cases ch <;> rfl
@[simp] theorem State.markCorrupt_hdr : (s.markCorrupt k ch).hdr = s.hdr := by cases k <;> cases ch <;> rfl
@[simp] theorem State.markCorrupt_ncomp : (s.markCorrupt k ch).ncomp = s.ncomp := by cases k <;> cases ch <;> rfl
@[simp] theorem State.markCorrupt_comp : (s.markCorrupt k ch).comp = s.comp := by cases k <;> cases ch <;> rfl
@[simp] theorem State.markCorrupt_qt : (s.markCorrupt k ch).qt = s.qt := by cases k <;> cases ch <;> rfl
@[simp] theorem State.markCorrupt_htDc : (s.markCorrupt k ch).htDc = s.htDc := by cases k <;> cases ch <;> rfl
@[simp] theorem State.markCorrupt_htAc : (s.markCorrupt k ch).htAc = s.htAc := by cases k <;> cases ch <;> rfl
@[simp] theorem State.markCorrupt_packer : (s.markCorrupt k ch).packer = s.packer := by cases k <;> cases ch <;> rfl
@[simp] theorem State.markCorrupt_unp : (s.markCorrupt k ch).unp = s.unp := by cases k <;> cases ch <;> rfl
@[simp] theorem State.markCorrupt_inp : (s.markCorrupt k ch).inp = s.inp := by cases k <;> cases ch <;> rfl
@[simp] theorem State.markCorrupt_out : (s.markCorrupt k ch).out = s.out := by cases k <;> cases ch <;> rfl
@[simp] theorem State.markCorrupt_issue : (s.markCorrupt k ch).issue = s.issue := by cases k <;> cases ch <;> rfl
@[simp] theorem State.markCorrupt_latch : (s.markCorrupt k ch).latch = s.latch := by cases k <;> cases ch <;> rfl
@[simp] theorem State.markCorrupt_freeIx : (s.markCorrupt k ch).freeIx = s.freeIx := by cases k <;> cases ch <;> rfl

@[simp] theorem State.shutDown_params : (s.shutDown k).params = s.params := by
  unfold State.shutDown; dsimp only; split <;> rfl
@[simp] theorem State.shutDown_expected : (s.shutDown k).expected = s.expected := by
  unfold State.shutDown; dsimp only; split <;> rfl
@[simp] theorem State.shutDown_count : (s.shutDown k).count = s.count := by
  unfold State.shutDown; dsimp only; split <;> rfl
@[simp] theorem State.shutDown_pred : (s.shutDown k).pred = s.pred := by
  unfold State.shutDown; dsimp only; split <;> rfl
@[simp] theorem State.shutDown_coef : (s.shutDown k).coef = s.coef := by
  unfold State.shutDown; dsimp only; split <;> rfl
@[simp] theorem State.shutDown_corrupt : (s.shutDown k).corrupt = s.corrupt := by
  unfold State.shutDown; dsimp only; split <;> rfl
@[simp] theorem State.shutDown_hdr : (s.shutDown k).hdr = s.hdr := by
  unfold State.shutDown; dsimp only; split <;> rfl
@[simp] theorem State.shutDown_ncomp : (s.shutDown k).ncomp = s.ncomp := by
  unfold State.shutDown; dsimp only; split <;> rfl
@[simp] theorem State.shutDown_comp : (s.shutDown k).comp = s.comp := by
  unfold State.shutDown; dsimp only; split <;> rfl
@[simp] theorem State.shutDown_qt : (s.shutDown k).qt = s.qt := by
  unfold State.shutDown; dsimp only; split <;> rfl
@[simp] theorem State.shutDown_htDc : (s.shutDown k).htDc = s.htDc := by
  unfold State.shutDown; dsimp only; split <;> rfl
@[simp] theorem State.shutDown_htAc : (s.shutDown k).htAc = s.htAc := by
  unfold State.shutDown; dsimp only; split <;> rfl
@[simp] theorem State.shutDown_packer : (s.shutDown k).packer = s.packer := by
  unfold State.shutDown; dsimp only; split <;> rfl
@[simp] theorem State.shutDown_unp : (s.shutDown k).unp = s.unp := by
  unfold State.shutDown; dsimp only; split <;> rfl
@[simp] theorem State.shutDown_inp : (s.shutDown k).inp = s.inp := by
  unfold State.shutDown; dsimp only; split <;> rfl
@[simp] theorem State.shutDown_issue : (s.shutDown k).issue = s.issue := by
  unfold State.shutDown; dsimp only; split <;> rfl
@[simp] theorem State.shutDown_latch : (s.shutDown k).latch = s.latch := by
  unfold State.shutDown; dsimp only; split <;> rfl
@[simp] theorem State.shutDown_freeIx : (s.shutDown k).freeIx = s.freeIx := by
  unfold State.shutDown; dsimp only; split <;> rfl

@[simp] theorem State.raise_params : (s.raise c ch aux).params = s.params := by
  unfold State.raise; dsimp only; split <;> simp
@[simp] theorem State.raise_expected : (s.raise c ch aux).expected = s.expected := by
  unfold State.raise; dsimp only; split <;> simp
@[simp] theorem State.raise_count : (s.raise c ch aux).count = s.count := by
  unfold State.raise; dsimp only; split <;> simp
@[simp] theorem State.raise_pred : (s.raise c ch aux).pred = s.pred := by
  unfold State.raise; dsimp only; split <;> simp
@[simp] theorem State.raise_coef : (s.raise c ch aux).coef = s.coef := by
  unfold State.raise; dsimp only; split <;> simp
@[simp] theorem State.raise_hdr : (s.raise c ch aux).hdr = s.hdr := by
  unfold State.raise; dsimp only; split <;> simp
@[simp] theorem State.raise_ncomp : (s.raise c ch aux).ncomp = s.ncomp := by
  unfold State.raise; dsimp only; split <;> simp
@[simp] theorem State.raise_comp : (s.raise c ch aux).comp = s.comp := by
  unfold State.raise; dsimp only; split <;> simp
@[simp] theorem State.raise_qt : (s.raise c ch aux).qt = s.qt := by
  unfold State.raise; dsimp only; split <;> simp
@[simp] theorem State.raise_htDc : (s.raise c ch aux).htDc = s.htDc := by
  unfold State.raise; dsimp only; split <;> simp
@[simp] theorem State.raise_htAc : (s.raise c ch aux).htAc = s.htAc := by
  unfold State.raise; dsimp only; split <;> simp
@[simp] theorem State.raise_packer : (s.raise c ch aux).packer = s.packer := by
  unfold State.raise; dsimp only; split <;> simp
@[simp] theorem State.raise_unp : (s.raise c ch aux).unp = s.unp := by
  unfold State.raise; dsimp only; split <;> simp
@[simp] theorem State.raise_inp : (s.raise c ch aux).inp = s.inp := by
  unfold State.raise; dsimp only; split <;> simp
@[simp] theorem State.raise_issue : (s.raise c ch aux).issue = s.issue := by
  unfold State.raise; dsimp only; split <;> simp
@[simp] theorem State.raise_latch : (s.raise c ch aux).latch = s.latch := by
  unfold State.raise; dsimp only; split <;> simp
@[simp] theorem State.raise_freeIx : (s.raise c ch aux).freeIx = s.freeIx := by
  unfold State.raise; dsimp only; split <;> simp

/-- No error changes a slot of the Huffman store by itself. -/
@[simp] theorem State.raise_huff (cls : HuffClass) (t : SlotId) : (s.raise c ch aux).huff cls t = s.huff cls t := by
  cases cls <;> simp [State.huff]

end

/-- The four things taking a message can be (R220). -/
theorem State.onMessage_cases (s : State) (k : MsgKind) (act : State → State) :
    (s.verdict k = .accept ∧ s.onMessage k act = act s) ∨
    (s.verdict k = .violation ∧ s.onMessage k act = s.raise .unexpectedInState none k.tag) ∨
    (s.verdict k = .drop ∧ s.onMessage k act = s) ∨
    (s.verdict k = .forwardEos ∧ s.onMessage k act = s.emit .eos) := by
  unfold State.onMessage
  cases s.verdict k <;> simp

/-- An accepted message finds the controller in Idle or ScanActive (R222). -/
theorem State.accept_live {s : State} {k : MsgKind} (h : s.verdict k = .accept) :
    s.scState = .idle ∨ s.scState = .scanActive := by
  revert h
  cases hs : s.scState <;> cases k <;> simp [State.verdict, Machine.verdict, hs]

/-- A message is only dropped or forwarded in a terminal state (R234). -/
theorem State.drop_terminal {s : State} {k : MsgKind} (h : s.verdict k = .drop ∨ s.verdict k = .forwardEos) :
    s.terminal = true := by
  revert h
  cases hs : s.scState <;> cases k <;> simp [State.verdict, Machine.verdict, State.terminal, hs] <;> split <;> simp

end Sys2Proof.Machine
end

