-- ==== Sys2Proof/Laws/Frames.lean ====
section
/-! SUPPORT. What the entropy coder's operations may change, said once each: reads change the Unpacker and `STATUS.MRK`;
encoding changes the Packer and the error state; decoding changes the Unpacker, its channel's block and predictor, and the error
state. -/

namespace Sys2Proof.Machine

open Sys2Proof

/-- `t` is `s` but for the Unpacker and `STATUS`. -/
def ReadStep (s t : State) : Prop := ∃ u st, t = { s with unp := u, status := st }

/-- `t` is `s` but for the Packer, whose bytes in `OBUF` stay (R61), `STATUS`, `CORRUPT` and the events. -/
def EncodeStep (s t : State) : Prop :=
  ∃ p st co ev, s.packer.obuf <+: p.obuf ∧ t = { s with packer := p, status := st, corrupt := co, out := ev }

/-- `t` is `s` but for the Unpacker, `STATUS`, `CORRUPT`, the events, `COEF` and `PRED`. -/
def DecodeStep (s t : State) : Prop :=
  ∃ u st co ev cf pr, t = { s with unp := u, status := st, corrupt := co, out := ev, coef := cf, pred := pr }

theorem ReadStep.refl (s : State) : ReadStep s s := ⟨s.unp, s.status, rfl⟩
theorem EncodeStep.refl (s : State) : EncodeStep s s :=
  ⟨s.packer, s.status, s.corrupt, s.out, List.prefix_refl _, rfl⟩
theorem DecodeStep.refl (s : State) : DecodeStep s s := ⟨s.unp, s.status, s.corrupt, s.out, s.coef, s.pred, rfl⟩

theorem ReadStep.trans {s t u : State} (h : ReadStep s t) (h' : ReadStep t u) : ReadStep s u := by
  obtain ⟨_, _, rfl⟩ := h; obtain ⟨a, b, rfl⟩ := h'; exact ⟨a, b, rfl⟩

theorem EncodeStep.trans {s t u : State} (h : EncodeStep s t) (h' : EncodeStep t u) : EncodeStep s u := by
  obtain ⟨_, _, _, _, hp, rfl⟩ := h; obtain ⟨a, b, c, d, hq, rfl⟩ := h'; exact ⟨a, b, c, d, hp.trans hq, rfl⟩

theorem DecodeStep.trans {s t u : State} (h : DecodeStep s t) (h' : DecodeStep t u) : DecodeStep s u := by
  obtain ⟨_, _, _, _, _, _, rfl⟩ := h; obtain ⟨a, b, c, d, e, f, rfl⟩ := h'; exact ⟨a, b, c, d, e, f, rfl⟩

theorem ReadStep.decodeStep {s t : State} (h : ReadStep s t) : DecodeStep s t := by
  obtain ⟨u, st, rfl⟩ := h; exact ⟨u, st, s.corrupt, s.out, s.coef, s.pred, rfl⟩

/-! ## Raising a recoverable error -/

theorem State.raise_encodeStep (s : State) {c : Cause} (ch : Option Chan) (aux : Byte) (h : c.kind = .encode) :
    EncodeStep s (s.raise c ch aux) := by
  cases ch with
  | none => exact ⟨s.packer, _, s.corrupt, _, List.prefix_refl _, by
      simp only [State.raise, State.markCorrupt, h, ErrKind.fatal]; rfl⟩
  | some c' => exact ⟨s.packer, _, _, _, List.prefix_refl _, by
      simp only [State.raise, State.markCorrupt, h, ErrKind.fatal]; rfl⟩

theorem State.raise_decodeStep (s : State) {c : Cause} (ch : Option Chan) (aux : Byte) (h : c.kind = .decode) :
    DecodeStep s (s.raise c ch aux) := by
  cases ch with
  | none => exact ⟨s.unp, _, s.corrupt, _, s.coef, s.pred, by
      simp only [State.raise, State.markCorrupt, h, ErrKind.fatal]; rfl⟩
  | some c' => exact ⟨s.unp, _, _, _, s.coef, s.pred, by
      simp only [State.raise, State.markCorrupt, h, ErrKind.fatal]; rfl⟩

/-! ## Reads -/

/-- GETBIT changes the Unpacker and, on a marker, sets `STATUS.MRK` (R156). -/
theorem State.getBit_frame (s : State) :
    ∃ u st, s.getBit.2 = { s with unp := u, status := st } ∧ (st = s.status ∨ st = s.status ||| flagMrk) := by
  unfold State.getBit
  split
  · exact ⟨_, s.status, rfl, .inl rfl⟩
  · exact ⟨_, s.status, rfl, .inl rfl⟩
  · exact ⟨_, _, rfl, .inr rfl⟩

theorem State.getBit_readStep (s : State) : ReadStep s s.getBit.2 := by
  obtain ⟨u, st, h, _⟩ := s.getBit_frame
  exact ⟨u, st, h⟩

theorem State.getBitsFrom_readStep (n v : Nat) (s : State) : ReadStep s (State.getBitsFrom v n s).2 := by
  induction n generalizing v s with
  | zero => exact ReadStep.refl s
  | succ n ih =>
    have h := s.getBit_readStep
    unfold State.getBitsFrom
    split
    · next s1 e => rw [e] at h; exact h
    · next b s1 e => rw [e] at h; exact h.trans (ih _ _)

theorem State.hdecodeFrom_readStep (hs : HuffSlot) (n cand : Nat) (s : State) :
    ReadStep s (State.hdecodeFrom hs n cand s).2 := by
  induction n generalizing cand s with
  | zero => exact ReadStep.refl s
  | succ n ih =>
    have h := s.getBit_readStep
    unfold State.hdecodeFrom
    split
    · next s1 e => rw [e] at h; exact h
    · next b s1 e =>
      rw [e] at h
      split
      · exact h
      · exact h.trans (ih _ _)

/-- HDECODE "reads only `T` and the Unpacker" (R190). -/
theorem State.hdecode_readStep (hs : HuffSlot) (s : State) : ReadStep s (s.hdecode hs).2 :=
  State.hdecodeFrom_readStep hs _ _ s

theorem State.recvVal_readStep (c : Nat) (s : State) : ReadStep s (s.recvVal c).2 := by
  have h := State.getBitsFrom_readStep c 0 s
  unfold State.recvVal State.getBits
  split
  · next s1 e => rw [e] at h; exact h
  · next b s1 e => rw [e] at h; exact h

/-- A failed HDECODE has one of three causes (R190, R191). -/
theorem State.hdecodeFrom_cause (hs : HuffSlot) (n cand : Nat) (s s1 : State) (c : Cause)
    (h : State.hdecodeFrom hs n cand s = (.error c, s1)) : c = .noCode ∨ c = s1.bitCause := by
  induction n generalizing cand s with
  | zero => simp only [State.hdecodeFrom, Prod.mk.injEq, Except.error.injEq] at h; exact .inl h.1.symm
  | succ n ih =>
    unfold State.hdecodeFrom at h
    split at h
    · simp only [Prod.mk.injEq, Except.error.injEq] at h
      rw [← h.2]; exact .inr h.1.symm
    · split at h
      · simp at h
      · exact ih _ _ h

theorem State.bitCause_kind (s : State) : s.bitCause.kind = .decode := by
  unfold State.bitCause; split <;> rfl

theorem State.hdecode_cause_kind {hs : HuffSlot} {s s1 : State} {c : Cause} (h : s.hdecode hs = (.error c, s1)) :
    c.kind = .decode := by
  rcases State.hdecodeFrom_cause hs _ _ s s1 c h with rfl | rfl
  · rfl
  · exact s1.bitCause_kind

theorem State.recvVal_cause_kind {n : Nat} {s s1 : State} {c : Cause} (h : s.recvVal n = (.error c, s1)) :
    c.kind = .decode := by
  unfold State.recvVal at h
  split at h
  · simp only [Prod.mk.injEq, Except.error.injEq] at h
    rw [← h.1]; exact State.bitCause_kind _
  · simp at h

/-! ## Encoding -/

/-- EMITSYM writes the Packer and nothing else (R175). -/
theorem State.emitSym_eq {hs : HuffSlot} {sym : Byte} {s t : State} (h : s.emitSym hs sym = some t) :
    ∃ e, hs.lookup sym = some e ∧ t = { s with packer := s.packer.putBits e.code.toNat e.len.toNat } := by
  unfold State.emitSym at h
  split at h
  · simp at h
  · next e he => exact ⟨e, he, (Option.some.inj h).symm⟩

theorem State.emitSym_encodeStep {hs : HuffSlot} {sym : Byte} {s t : State} (h : s.emitSym hs sym = some t) :
    EncodeStep s t := by
  obtain ⟨e, _, rfl⟩ := State.emitSym_eq h
  exact ⟨_, s.status, s.corrupt, s.out, Packer.putBits_grows _ _ _, rfl⟩

theorem State.putBits_encodeStep (v n : Nat) (s : State) : EncodeStep s (s.putBits v n) :=
  ⟨_, s.status, s.corrupt, s.out, Packer.putBits_grows _ _ _, rfl⟩

theorem State.emitZrls_encodeStep (hs : HuffSlot) (n : Nat) (s : State) : EncodeStep s (State.emitZrls hs n s).2 := by
  induction n generalizing s with
  | zero => exact EncodeStep.refl s
  | succ n ih =>
    unfold State.emitZrls
    split
    · exact EncodeStep.refl s
    · next s1 e => exact (State.emitSym_encodeStep e).trans (ih s1)

/-- The AC loop changes the Packer and the error state only (R182). -/
theorem State.encodeAc_encodeStep (ch : Chan) (hs : HuffSlot) (vs : List Word) (run : Nat) (s : State) :
    EncodeStep s (State.encodeAc ch hs vs run s).2 := by
  induction vs generalizing run s with
  | nil =>
    unfold State.encodeAc
    split
    · exact EncodeStep.refl s
    · split
      · exact s.raise_encodeStep (c := .noEobSymbol) _ _ rfl
      · next s1 e => exact State.emitSym_encodeStep e
  | cons v vs ih =>
    unfold State.encodeAc
    split
    · exact ih _ _
    · have hz := State.emitZrls_encodeStep hs (run / 16) s
      split
      · next s1 e => rw [e] at hz; exact hz.trans (s1.raise_encodeStep (c := .noZrlSymbol) _ _ rfl)
      · next s1 e =>
        rw [e] at hz
        dsimp only
        split
        · exact hz.trans (s1.raise_encodeStep (c := .acCategoryTooLarge) _ _ rfl)
        · split
          · exact hz.trans (s1.raise_encodeStep (c := .noAcSymbol) _ _ rfl)
          · next s2 e2 =>
            exact hz.trans ((State.emitSym_encodeStep e2).trans ((State.putBits_encodeStep _ _ s2).trans (ih _ _)))

/-- ENCODE_BLOCK changes its channel's predictor, the Packer and the error state (R182). -/
theorem State.encodeBlock_encodeStep (ch : Chan) (s : State) :
    EncodeStep (s.setPred ch s.coef[ch][(0 : Fin 64)]) (s.encodeBlock ch).2 := by
  unfold State.encodeBlock
  dsimp only
  split
  · exact State.raise_encodeStep _ (c := .noDcSymbol) _ _ rfl
  · next s2 e =>
    exact (State.emitSym_encodeStep e).trans ((State.putBits_encodeStep _ _ s2).trans (State.encodeAc_encodeStep _ _ _ _ _))

/-! ## Decoding -/

theorem State.setCoef_decodeStep (ch : Chan) (i : Fin 64) (v : Word) (s : State) : DecodeStep s (s.setCoef ch i v) :=
  ⟨s.unp, s.status, s.corrupt, s.out, _, s.pred, rfl⟩

theorem State.setPred_decodeStep (ch : Chan) (v : Word) (s : State) : DecodeStep s (s.setPred ch v) :=
  ⟨s.unp, s.status, s.corrupt, s.out, s.coef, _, rfl⟩

theorem State.dcItem_decodeStep (ch : Chan) (c : Nat) (s : State) : DecodeStep s (s.dcItem ch c).2 := by
  have h := s.recvVal_readStep c
  unfold State.dcItem
  split
  · next e s1 he =>
    rw [he] at h
    exact h.decodeStep.trans (s1.raise_decodeStep _ _ (State.recvVal_cause_kind he))
  · next d s1 he =>
    rw [he] at h
    exact h.decodeStep.trans ((State.setPred_decodeStep _ _ s1).trans (State.setCoef_decodeStep _ _ _ _))

theorem State.runSizeItem_decodeStep (ch : Chan) (sym : Byte) (r c k : Nat) (s : State) :
    DecodeStep s (s.runSizeItem ch sym r c k).2.2 := by
  have h := s.recvVal_readStep c
  unfold State.runSizeItem
  split
  · exact s.raise_decodeStep (c := .indexOverflow) _ _ rfl
  · split
    · next e s1 he =>
      rw [he] at h
      exact h.decodeStep.trans (s1.raise_decodeStep _ _ (State.recvVal_cause_kind he))
    · next v s1 he =>
      rw [he] at h
      exact h.decodeStep.trans (State.setCoef_decodeStep _ _ _ _)

theorem State.acItem_decodeStep (ch : Chan) (sym : Byte) (k : Nat) (s : State) :
    DecodeStep s (s.acItem ch sym k).2.2 := by
  unfold State.acItem
  split
  · exact DecodeStep.refl s
  · exact DecodeStep.refl s
  · exact State.runSizeItem_decodeStep ..
  · exact State.runSizeItem_decodeStep ..

/-- The AC loop of DECODE_BLOCK changes the Unpacker, coefficients, predictors and the error state only (R202). -/
theorem State.decodeAc_decodeStep (ch : Chan) (hs : HuffSlot) (fuel k : Nat) (s : State) :
    DecodeStep s (State.decodeAc ch hs fuel k s).2 := by
  induction fuel generalizing k s with
  | zero => exact DecodeStep.refl s
  | succ fuel ih =>
    have h := s.hdecode_readStep hs
    unfold State.decodeAc
    split
    · exact DecodeStep.refl s
    · split
      · next e s1 he =>
        rw [he] at h
        exact h.decodeStep.trans (s1.raise_decodeStep _ _ (State.hdecode_cause_kind he))
      · next sym s1 he =>
        rw [he] at h
        have ha := s1.acItem_decodeStep ch sym k
        split
        · next k' s2 e => rw [e] at ha; exact h.decodeStep.trans ha
        · next k' s2 e => rw [e] at ha; exact h.decodeStep.trans (ha.trans (ih _ _))

/-- DECODE_BLOCK changes the Unpacker, coefficients, predictors and the error state only (R202). -/
theorem State.decodeBlock_decodeStep (ch : Chan) (s : State) : DecodeStep s (s.decodeBlock ch).2 := by
  have h0 : DecodeStep s (s.setBlock ch zeroBlock) := ⟨s.unp, s.status, s.corrupt, s.out, _, s.pred, rfl⟩
  have h := (s.setBlock ch zeroBlock).hdecode_readStep (s.dcTable ch)
  unfold State.decodeBlock
  dsimp only
  split
  · next e s1 he =>
    rw [he] at h
    exact h0.trans (h.decodeStep.trans (s1.raise_decodeStep _ _ (State.hdecode_cause_kind he)))
  · next sym s1 he =>
    rw [he] at h
    split
    · exact h0.trans (h.decodeStep.trans (s1.raise_decodeStep (c := .badCategory) _ _ rfl))
    · next c hc =>
      have hd := s1.dcItem_decodeStep ch c.toNat
      split
      · next s2 e => rw [e] at hd; exact h0.trans (h.decodeStep.trans hd)
      · next s2 e =>
        rw [e] at hd
        exact h0.trans (h.decodeStep.trans (hd.trans (State.decodeAc_decodeStep _ _ _ _ _)))

end Sys2Proof.Machine
end

