-- ==== Sys2Proof/Laws/PerInstr.lean ====
section
/-! SUPPORT. Families stated per instruction. `Opcode`: the first byte of an instruction's words has the fixed bits that its row of
spec/opcode_table.json gives (match under mask). -/

namespace Sys2Proof.Laws

open Sys2Proof

/-- The words of a well-formed instruction start with its row's fixed bits. An internal operation has no words (R117). -/
def Opcode.Statement (i : Instr) : Prop :=
  ∀ bs, encode i = some bs → i.wellFormed = true → ∃ b rest m k, bs = b :: rest ∧ i.pattern = some (m, k) ∧ b &&& k = m

/-- An operation with no words meets it. -/
theorem Opcode.ofNoWords {i : Instr} (h : encode i = none) : Opcode.Statement i := by
  intro bs hb; rw [h] at hb; cases hb

/-- A message meets it by its kind tag. -/
theorem Opcode.ofWords {i : Instr} {b m k : Byte} {rest : List Byte} (h : encode i = some (b :: rest))
    (hp : i.pattern = some (m, k)) (hm : b &&& k = m) : Opcode.Statement i := by
  intro bs hb _
  rw [h] at hb
  exact ⟨b, rest, m, k, (Option.some.inj hb).symm, hp, hm⟩

theorem Opcode.header (a b : Half) (c d : List Byte) (e f g h : Byte) : Opcode.Statement (.header a b c d e f g h) :=
  Opcode.ofWords rfl rfl rfl
theorem Opcode.component (a b c d e f : Byte) : Opcode.Statement (.component a b c d e f) := Opcode.ofWords rfl rfl rfl
theorem Opcode.hufftable (a : Byte) (b : Vector Byte 16) (c : List Byte) : Opcode.Statement (.hufftable a b c) :=
  Opcode.ofWords rfl rfl rfl
theorem Opcode.quanttable (a : Byte) (b : Bool) (c : HalfBlock) : Opcode.Statement (.quanttable a b c) :=
  Opcode.ofWords rfl rfl rfl
theorem Opcode.mcu (a b c : HalfBlock) : Opcode.Statement (.mcu a b c) := Opcode.ofWords rfl rfl rfl
theorem Opcode.cdata (a : List Byte) : Opcode.Statement (.cdata a) := Opcode.ofWords rfl rfl rfl
theorem Opcode.eos : Opcode.Statement .eos := Opcode.ofWords rfl rfl rfl
theorem Opcode.dccat (c : BitVec 5) : Opcode.Statement (.dccat c) :=
  Opcode.ofWords (b := c.setWidth 8) rfl rfl (by revert c; decide)
theorem Opcode.acrs (r c : BitVec 4) : Opcode.Statement (.acrs r c) := Opcode.ofWords (b := r ++ c) rfl rfl (by simp)
theorem Opcode.eob : Opcode.Statement .eob := Opcode.ofWords rfl rfl rfl
theorem Opcode.zrl : Opcode.Statement .zrl := Opcode.ofWords rfl rfl rfl
theorem Opcode.acskip (r : BitVec 4) : Opcode.Statement (.acskip r) :=
  Opcode.ofWords (b := r ++ 0#4) rfl rfl (by revert r; decide)
theorem Opcode.buildcodes (a : Byte) (b : Vector Half 16) (c : List Byte) : Opcode.Statement (.buildcodes a b c) :=
  Opcode.ofNoWords rfl
theorem Opcode.qtload (a : Byte) (b : Bool) (c : HalfBlock) : Opcode.Statement (.qtload a b c) := Opcode.ofNoWords rfl
theorem Opcode.putbits (a b : Nat) : Opcode.Statement (.putbits a b) := Opcode.ofNoWords rfl
theorem Opcode.emitbyte (a : Byte) : Opcode.Statement (.emitbyte a) := Opcode.ofNoWords rfl
theorem Opcode.finalize : Opcode.Statement .finalize := Opcode.ofNoWords rfl
theorem Opcode.prestart : Opcode.Statement .prestart := Opcode.ofNoWords rfl
theorem Opcode.getbit : Opcode.Statement .getbit := Opcode.ofNoWords rfl
theorem Opcode.getbits (n : Nat) : Opcode.Statement (.getbits n) := Opcode.ofNoWords rfl
theorem Opcode.urestart : Opcode.Statement .urestart := Opcode.ofNoWords rfl
theorem Opcode.category (v : Int) : Opcode.Statement (.category v) := Opcode.ofNoWords rfl
theorem Opcode.mag (v : Int) (c : Nat) : Opcode.Statement (.mag v c) := Opcode.ofNoWords rfl
theorem Opcode.hlookup (a : HuffClass) (b : SlotId) (c : Byte) : Opcode.Statement (.hlookup a b c) := Opcode.ofNoWords rfl
theorem Opcode.emitsym (a : HuffClass) (b : SlotId) (c : Byte) : Opcode.Statement (.emitsym a b c) := Opcode.ofNoWords rfl
theorem Opcode.encodeBlock (a : Chan) : Opcode.Statement (.encodeBlock a) := Opcode.ofNoWords rfl
theorem Opcode.hdecode (a : HuffClass) (b : SlotId) : Opcode.Statement (.hdecode a b) := Opcode.ofNoWords rfl
theorem Opcode.unmag (a b : Nat) : Opcode.Statement (.unmag a b) := Opcode.ofNoWords rfl
theorem Opcode.recvval (a : Nat) : Opcode.Statement (.recvval a) := Opcode.ofNoWords rfl
theorem Opcode.decodeBlock (a : Chan) : Opcode.Statement (.decodeBlock a) := Opcode.ofNoWords rfl
theorem Opcode.dequantize : Opcode.Statement .dequantize := Opcode.ofNoWords rfl
theorem Opcode.quantize : Opcode.Statement .quantize := Opcode.ofNoWords rfl
theorem Opcode.precheck (a : Bool) : Opcode.Statement (.precheck a) := Opcode.ofNoWords rfl
theorem Opcode.completeEnc : Opcode.Statement .completeEnc := Opcode.ofNoWords rfl
theorem Opcode.completeDec : Opcode.Statement .completeDec := Opcode.ofNoWords rfl

end Sys2Proof.Laws
end

