-- ==== Sys2Proof/Laws/Quantizer.lean ====
section
/-! SUPPORT. DEQUANTIZE and QUANTIZE: each coefficient, and what they leave alone. -/

namespace Sys2Proof.Machine

open Sys2Proof

theorem dequantBlock_get (b : Block) (q : HalfBlock) (i : Fin 64) : (dequantBlock b q)[i] = b[i] * (q[i]).setWidth 32 := by
  simp [dequantBlock]

theorem quantBlock_get (b : Block) (q : HalfBlock) (i : Fin 64) :
    (quantBlock b q)[i] = if q[i] = 0 then 0 else BitVec.ofInt 32 (rhaz (b[i]).toInt (q[i]).toNat) := by
  simp [quantBlock]

theorem extendBlock_get (b : HalfBlock) (i : Fin 64) : (extendBlock b)[i] = (b[i]).signExtend 32 := by
  simp [extendBlock]

/-- DEQUANTIZE writes coefficients and nothing else (R210). -/
theorem State.dequantize_frame (s : State) : ∃ c, s.dequantize = { s with coef := c } := ⟨_, rfl⟩

/-- The zero divisors of a channel change the error state only (R212). -/
theorem State.raiseDivZero_encodeStep (ch : Chan) (q : HalfBlock) (is : List (Fin 64)) (s : State) :
    EncodeStep s (State.raiseDivZero ch q is s) := by
  induction is generalizing s with
  | nil => exact EncodeStep.refl s
  | cons i is ih =>
    unfold State.raiseDivZero
    split
    · exact (s.raise_encodeStep (c := .quantDivZero) _ _ rfl).trans (ih _)
    · exact ih _

/-- QUANTIZE on a channel writes its block and the error state (R211). -/
theorem State.quantChannel_encodeStep (ch : Chan) (s : State) :
    EncodeStep (s.setBlock ch (quantBlock s.coef[ch] (s.quantTable ch))) (s.quantChannel ch) :=
  State.raiseDivZero_encodeStep _ _ _ _

end Sys2Proof.Machine
end

