-- ==== Sys2Proof/Laws/Step.lean ====
section
/-! SUPPORT. What one step can be (R14, R74): an operation of the issue register, a wait, a message, or a record that is none. And
what the decoder can answer. -/

namespace Sys2Proof

/-- The fields of a kind make a message of that kind. -/
theorem takeFields_layer {k : MsgKind} {bs rest : List Byte} {i : Instr} (h : takeFields k bs = some (i, rest)) :
    i.layer = .message := by
  cases k <;>
    simp only [takeFields, takeHeader, takeComponent, takeHufftable, takeQuanttable, takeMcu, takeCdata, Option.bind_eq_bind,
      Option.bind_eq_some_iff, Option.pure_def, Option.some.injEq, Prod.mk.injEq] at h
  case eos => rw [← h.1]; rfl
  all_goals
    repeat (first | obtain ⟨_, _, h⟩ := h)
    subst_vars
    rfl

/-- A decoded record is a well-formed message. -/
theorem decodeFront_message {bs rest : List Byte} {i : Instr} (h : decodeFront bs = .ok (i, rest)) :
    i.layer = .message ∧ i.wellFormed = true := by
  unfold decodeFront at h
  split at h
  · simp at h
  · split at h
    · simp at h
    · split at h
      · simp at h
      · next hf =>
        split at h
        · next hw =>
          simp only [Except.ok.injEq, Prod.mk.injEq] at h
          rw [← h.1]
          exact ⟨takeFields_layer hf, hw⟩
        · simp at h

/-- What `decodeRecord` answers, in terms of its front. -/
theorem decodeRecord_message {img : List Byte} {i : Instr} (h : decodeRecord img = .ok i) :
    i.layer = .message ∧ i.wellFormed = true := by
  unfold decodeRecord at h
  split at h
  · simp at h
  · next hf =>
    simp only [Except.ok.injEq] at h
    rw [← h]
    exact decodeFront_message hf
  · split at h <;> simp at h

namespace Machine

/-- The four things a step can be. -/
theorem step_cases (s : State) :
    (∃ i, s.issue = some i ∧ step s = exec i { s with issue := none }) ∨
    (s.issue = none ∧ s.inp = [] ∧ step s = .next s) ∨
    (∃ img rest i, s.issue = none ∧ s.inp = img :: rest ∧ decodeRecord img = .ok i ∧ step s = exec i (s.release rest)) ∨
    (∃ img rest e, s.issue = none ∧ s.inp = img :: rest ∧ decodeRecord img = .error e ∧
      step s = (s.release rest).onReject e) := by
  unfold step
  split
  · next i hi => exact .inl ⟨i, hi, rfl⟩
  · next hi =>
    split
    · next hp => exact .inr (.inl ⟨hi, hp, rfl⟩)
    · next img rest hp =>
      split
      · next i hd => exact .inr (.inr (.inl ⟨img, rest, i, hi, hp, hd, rfl⟩))
      · next e hd => exact .inr (.inr (.inr ⟨img, rest, e, hi, hp, hd, rfl⟩))

/-- With the issue register empty a step that answers a next state is a wait, a message, a record of unknown kind, or a record
dropped in a terminal state. -/
theorem step_next_cases {s t : State} (hi : s.issue = none) (h : step s = .next t) :
    (s.inp = [] ∧ t = s) ∨
    (∃ img rest i, s.inp = img :: rest ∧ decodeRecord img = .ok i ∧ exec i (s.release rest) = .next t) ∨
    (∃ rest k, s.inp.tail = rest ∧ t = (s.release rest).onUnknownKind k) ∨
    (∃ rest, s.inp.tail = rest ∧ s.terminal = true ∧ t = s.release rest) := by
  rcases step_cases s with ⟨i, hj, _⟩ | ⟨_, hp, hs⟩ | ⟨img, rest, i, _, hp, hd, hs⟩ | ⟨img, rest, e, _, hp, hd, hs⟩
  · rw [hi] at hj; cases hj
  · rw [hs] at h; cases h; exact .inl ⟨hp, rfl⟩
  · rw [hs] at h; exact .inr (.inl ⟨img, rest, i, hp, hd, h⟩)
  · rw [hs] at h
    refine .inr (.inr ?_)
    unfold State.onReject at h
    split at h
    · next k => cases h; exact .inl ⟨rest, k, by rw [hp]; rfl, rfl⟩
    all_goals
      split at h
      · next ht => cases h; exact .inr ⟨rest, by rw [hp]; rfl, ht, rfl⟩
      · cases h

/-- A placed message is the next record. -/
theorem State.place_message {i : Instr} {img : List Byte} (s : State) (h : encodeRecord i = some img) :
    s.place i = { s with inp := img :: s.inp, issue := none } := by
  unfold State.place; rw [h]

/-- A placed symbol or internal operation stands in the issue register, and the next step runs it. -/
theorem State.step_place_internal {i : Instr} (s : State) (h : encodeRecord i = none) :
    step (s.place i) = exec i { s with issue := none } := by
  unfold State.place; rw [h]; rfl

end Machine

end Sys2Proof
end

