-- ==== Sys2Proof/Laws/Tables.lean ====
section
/-! SUPPORT. Code assignment (R131) and the table stores: what a build answers, and the one slot it writes. -/

namespace Sys2Proof.Machine

open Sys2Proof

@[simp] theorem codesOfLength_length (l code : Nat) (syms : List Byte) : (codesOfLength l code syms).length = syms.length := by
  induction syms generalizing code with
  | nil => rfl
  | cons _ _ ih => simp [codesOfLength, ih]

/-- The symbols of one length keep their order. -/
@[simp] theorem codesOfLength_syms (l code : Nat) (syms : List Byte) :
    (codesOfLength l code syms).map HuffEntry.sym = syms := by
  induction syms generalizing code with
  | nil => rfl
  | cons _ _ ih => simp [codesOfLength, ih]

/-- The codes of one length are consecutive (R131). -/
theorem codesOfLength_getElem? (l code : Nat) (syms : List Byte) (j : Nat) :
    (codesOfLength l code syms)[j]?
      = (syms[j]?).map (fun sym => { sym := sym, len := BitVec.ofNat 5 l, code := BitVec.ofNat 16 (code + j) }) := by
  induction syms generalizing code j with
  | nil => simp [codesOfLength]
  | cons sym syms ih =>
    cases j with
    | zero => simp [codesOfLength]
    | succ j =>
      simp only [codesOfLength, List.getElem?_cons_succ, ih]
      rw [show code + 1 + j = code + (j + 1) by omega]

/-- One length of a successful assignment. -/
theorem assignCodes_cons_ok {l cnt : Nat} {cnts : List Nat} {syms : List Byte} {code : Nat} {es : List HuffEntry}
    (h : assignCodes l (cnt :: cnts) syms code = .ok es) :
    code + cnt ≤ 2 ^ l ∧ ∃ rest, assignCodes (l + 1) cnts (syms.drop cnt) (2 * (code + cnt)) = .ok rest ∧
      es = codesOfLength l code (syms.take cnt) ++ rest := by
  unfold assignCodes at h
  split at h
  · simp at h
  · next hle =>
    split at h
    · simp at h
    · next es' he =>
      simp only [Except.ok.injEq] at h
      exact ⟨by omega, es', he, h.symm⟩

/-- The symbols of a successful assignment are the list's, in its order (R131). -/
theorem assignCodes_syms {l : Nat} {cnts : List Nat} {syms : List Byte} {code : Nat} {es : List HuffEntry}
    (h : assignCodes l cnts syms code = .ok es) : es.map HuffEntry.sym = syms.take cnts.sum := by
  induction cnts generalizing l syms code es with
  | nil => simp only [assignCodes, Except.ok.injEq] at h; simp [← h]
  | cons cnt cnts ih =>
    obtain ⟨_, rest, hr, rfl⟩ := assignCodes_cons_ok h
    rw [List.map_append, codesOfLength_syms, ih hr, List.sum_cons, List.take_add]

/-- What a successful build has checked (R135). -/
theorem buildEntries_ok {id : Byte} {lengths : Vector Half 16} {table : List Byte} {es : List HuffEntry}
    (h : buildEntries id lengths table = .ok es) :
    tableIdLegal id = true ∧ lengthsSum lengths ≤ 256 ∧ table.length = lengthsSum lengths ∧
      assignCodes 1 (lengths.toList.map BitVec.toNat) table 0 = .ok es := by
  unfold buildEntries at h
  split at h
  · simp at h
  · next h1 =>
    split at h
    · simp at h
    · next h2 =>
      split at h
      · simp at h
      · next h3 =>
        split at h
        · simp at h
        · next es' he =>
          simp only [Except.ok.injEq] at h
          subst h
          refine ⟨by simpa using h1, ?_, ?_, he⟩
          · unfold Config.maxSym at h2; omega
          · omega

/-- A build writes one slot and no error, or raises one fatal error of a table (R135 to R137). -/
theorem State.buildCodes_cases (s : State) (id : Byte) (lengths : Vector Half 16) (table : List Byte) :
    (∃ es, buildEntries id lengths table = .ok es ∧
      s.buildCodes id lengths table = s.setHuff (tableIdClass id) (tableIdSlot id) (builtSlot lengths es)) ∨
    (∃ c l, buildEntries id lengths table = .error (c, l) ∧
      s.buildCodes id lengths table = (s.spoil id).raise c none (buildAux id (c, l))) := by
  unfold State.buildCodes
  split
  · next c l h => exact .inr ⟨c, l, h, rfl⟩
  · next es h => exact .inl ⟨es, h, rfl⟩

end Sys2Proof.Machine
end

