-- ==== Sys2Proof/Tests/Slice0.lean ====
section
/-! SUPPORT. The model's own tests: well-formedness, decoding word by word, one step per instruction against the vectors T1 to T56 and
the programs P1 to P8 of spec/95_test_vectors.md, and a witness for the hypotheses of every obligation, clause by clause. -/

set_option maxRecDepth 100000

namespace Sys2Proof.Tests

open Sys2Proof Sys2Proof.Machine

/-! ## Builders -/

/-- An array of 16-bit fields from its first values, the rest 0. -/
def vec (n : Nat) (l : List Half) : Vector Half n := Vector.ofFn (fun i => l.getD i.val 0)

/-- The sixteen length bytes of a HUFFTABLE message from the first ones, the rest 0. -/
def lens (l : List Byte) : Vector Byte 16 := Vector.ofFn (fun i => l.getD i.val 0)

/-- A message block with the values named (spec/30_encoding.md R116), the rest 0. -/
def blk (l : List (Nat × Int)) : HalfBlock :=
  Vector.ofFn (fun i => match l.find? (fun p => p.1 == i.val) with | some p => BitVec.ofInt 16 p.2 | none => 0)

/-- A register block with the values named, the rest 0. -/
def blk32 (l : List (Nat × Int)) : Block :=
  Vector.ofFn (fun i => match l.find? (fun p => p.1 == i.val) with | some p => BitVec.ofInt 32 p.2 | none => 0)

/-- DC12 of spec/95_test_vectors.md section 0. -/
def dcLengths : Vector Half 16 := vec 16 [0, 1, 5, 1, 1, 1, 1, 1, 1]
def dcSymbols : List Byte := [0, 1, 2, 3, 4, 5, 6, 7, 8, 9, 10, 11]

/-- AC10 of spec/95_test_vectors.md section 0. -/
def acLengths : Vector Half 16 := vec 16 [0, 2, 2, 3, 1, 1, 1]
def acSymbols : List Byte := [0x00, 0x01, 0x02, 0x11, 0x03, 0x41, 0xF0, 0xE1, 0xF1, 0x51]

/-- QA and QB. -/
def qa : HalfBlock := Vector.ofFn (fun i => BitVec.ofNat 16 (i.val + 1))
def qb : HalfBlock := Vector.replicate 64 2

/-- The tables of SETUP loaded, Idle. -/
def loaded : State :=
  (((State.reset.qtLoad 0 false qa).qtLoad 1 false qb).buildCodes 0x00 dcLengths dcSymbols).buildCodes 0x10 acLengths acSymbols

/-- SETUP(h, w). -/
def setup (h w : Half) : State :=
  (((loaded.openScan h w [] [] 8 0 63 0).component 1 1 1 0 0 0).component 2 1 1 1 0 0).component 3 1 1 1 0 0

/-- The next state of an outcome. -/
def nextOf : Host.Outcome State Fault Refusal → Option State
  | .next t => some t
  | .fault _ => none
  | .refused _ => none

/-- Power-on with an Unpacker that stands somewhere in a buffer. -/
def reading (ibuf : List Byte) (ipos : Nat) (ibit : Fin 8) : State :=
  { State.reset with unp := { Unpacker.reset with ibuf := ibuf, ipos := ipos, ibit := ibit } }

/-- Power-on with a Packer that stands somewhere. -/
def writing (obuf : List Byte) (cur : Byte) (nbits : Fin 8) : State :=
  { State.reset with packer := { obuf := obuf, cur := cur, nbits := nbits } }

/-- The complete code of T11: two symbols of one bit. -/
def pairSlot (a b : Byte) : HuffSlot :=
  { valid := true, cnt := Vector.ofFn (fun i => if i.val = 0 then 2 else 0), n := 2
    entries := [{ sym := a, len := 1, code := 0 }, { sym := b, len := 1, code := 1 }] }

/-- An open scan of one MCU whose three components use slot 0 of each store: DC symbols 0 and 17, AC symbols 0x00 and 0x01. -/
def small : State :=
  { State.reset with
    scState := .scanActive, expected := 1
    hdr := { HeaderRegs.reset with valid := true, height := 8, width := 8 }
    ncomp := 3
    qt := State.reset.qt.set 0 { valid := true, prec := false, q := Vector.replicate 64 1 }
    htDc := State.reset.htDc.set 0 (pairSlot 0 17)
    htAc := State.reset.htAc.set 0 (pairSlot 0 1) }

/-! ## Well-formedness: one ill-formed term for each check -/

theorem test_illformed_quanttable : Instr.wellFormed (.quanttable 0 false (vec 64 [255, 256])) = false := by decide
theorem test_illformed_qtload : Instr.wellFormed (.qtload 0 false (vec 64 [256])) = false := by decide
theorem test_illformed_cdata (n : Nat) (h : 2 ^ 32 ≤ n) : Instr.wellFormed (.cdata (List.replicate n 0)) = false := by
  simp only [Instr.wellFormed, List.length_replicate]
  exact decide_eq_false (by omega)
theorem test_illformed_dccat : Instr.wellFormed (.dccat 17) = false := by decide
theorem test_illformed_acrs : Instr.wellFormed (.acrs 3 0) = false := by decide
theorem test_illformed_acskip_eob : Instr.wellFormed (.acskip 0) = false := by decide
theorem test_illformed_acskip_zrl : Instr.wellFormed (.acskip 15) = false := by decide
theorem test_illformed_putbits : Instr.wellFormed (.putbits 0 33) = false := by decide
theorem test_illformed_getbits : Instr.wellFormed (.getbits 17) = false := by decide
theorem test_illformed_mag_large : Instr.wellFormed (.mag 8 3) = false := by decide
theorem test_illformed_mag_small : Instr.wellFormed (.mag 3 3) = false := by decide
theorem test_illformed_unmag_category : Instr.wellFormed (.unmag 0 17) = false := by decide
theorem test_illformed_unmag_field : Instr.wellFormed (.unmag 8 3) = false := by decide
theorem test_illformed_recvval : Instr.wellFormed (.recvval 17) = false := by decide

/-! ## Decoding: kind tags of R91, fields in the order of R92 to R98 (the bytes of the fields: log entry 1) -/

theorem test_decode_header :
    decodeRecord [0b00000001, 0x12, 0x34, 0x00, 0x08, 1, 0x61, 1, 0x62, 0, 0, 8, 1, 62, 3]
      = .ok (.header 0x1234 8 [0x61, 0x62] [] 8 1 62 3) := rfl
theorem test_decode_component : decodeRecord [0b00000010, 1, 2, 3, 4, 5, 6] = .ok (.component 1 2 3 4 5 6) := rfl
theorem test_decode_hufftable :
    decodeRecord ([0b00000011, 0x10] ++ [1, 2, 255] ++ List.replicate 13 0 ++ [1, 0xAA, 1, 0xBB, 0])
      = .ok (.hufftable 0x10 (lens [1, 2, 255]) [0xAA, 0xBB]) := rfl
theorem test_decode_quanttable :
    decodeRecord ([0b00000100, 3, 1] ++ [0xFF, 0xFE] ++ List.replicate 126 0) = .ok (.quanttable 3 true (vec 64 [0xFFFE])) := rfl
theorem test_decode_mcu :
    decodeRecord ([0b00000101] ++ [0xFF, 0xFB] ++ List.replicate 126 0 ++ [0, 7] ++ List.replicate 254 0)
      = .ok (.mcu (blk [(0, -5)]) (blk [(0, 7)]) (blk [])) := by decide
theorem test_decode_cdata : decodeRecord [0b00000110, 0, 0, 0, 3, 0x89, 0xFF, 0xD9] = .ok (.cdata [0x89, 0xFF, 0xD9]) := by decide
theorem test_decode_eos : decodeRecord [0b00000111] = .ok .eos := by decide

/-- R105, R113 (5): `000ccccc`. -/
theorem test_decode_dccat : decodeDcSymbol 0b00001011 = .ok (.dccat 11) ∧ decodeDcSymbol 0b00010001 = .error (.badCategory 17) :=
  ⟨rfl, rfl⟩
/-- R106: `rrrrcccc`. -/
theorem test_decode_acrs : decodeAcSymbol 0b01000001 = .acrs 4 1 ∧ decodeAcSymbol 0b00001111 = .acrs 0 15 := ⟨rfl, rfl⟩
/-- R107. -/
theorem test_decode_eob : decodeAcSymbol 0b00000000 = .eob := rfl
/-- R108. -/
theorem test_decode_zrl : decodeAcSymbol 0b11110000 = .zrl := rfl
/-- R113 (6), R200: `rrrr0000`. -/
theorem test_decode_acskip : decodeAcSymbol 0b00010000 = .acskip 1 ∧ decodeAcSymbol 0b11100000 = .acskip 14 := ⟨rfl, rfl⟩

/-- R99: no kind 0x00 or 0x08; a record that ends early, or goes on too long, is none. -/
theorem test_decode_rejects :
    decodeRecord [0x00] = .error (.unknownKind 0) ∧ decodeRecord [0x08] = .error (.unknownKind 8) ∧
    decodeRecord [0x02, 1, 2, 3, 4, 5] = .error (.malformed 2) ∧ decodeRecord [0x07, 0] = .error (.malformed 7) ∧
    decodeRecord [] = .error .empty := ⟨rfl, rfl, rfl, rfl, rfl⟩

/-- Words as the opcode table numbers them. -/
theorem test_table_words :
    decodeTableWord 8 0x07 = some .eos ∧ decodeTableWord 8 0xF0 = some .zrl ∧ decodeTableWord 8 0xF1 = some (.acrs 15 1) ∧
    decodeTableWord 8 0xE0 = some (.acskip 14) ∧ decodeTableWord 8 0x00 = some .eob ∧ decodeTableWord 8 0x0B = some (.dccat 11) ∧
    decodeTableWord 56 0x06050403020102 = some (.component 1 2 3 4 5 6) := by decide

/-! ## Messages -/

/-- T8: `h = w = 65535` gives `EXPECTED = 67,108,864`. -/
theorem test_header_expected :
    (nextOf (exec (.header 65535 65535 [] [] 8 0 63 0) State.reset)).map (fun t => (t.scState, t.expected, t.hdr.valid))
      = some (.scanActive, 67108864, true) := by decide
/-- T54: a zero height is ZeroDimension. -/
theorem test_header_zero :
    (nextOf (exec (.header 0 8 [] [] 8 0 63 0) State.reset)).map (fun t => (t.scState, t.out))
      = some (.halted, [.log .zeroDimension none 0 0, .shutdown .protocol]) := by decide
/-- R225: the first COMPONENT is channel 0, AC table before DC table. -/
theorem test_component_first :
    (nextOf (exec (.component 9 1 2 3 4 5) (State.reset.openScan 8 8 [] [] 8 0 63 0))).map
      (fun t => (t.comp[(0 : Chan)], t.ncomp)) = some ({ id := 9, h := 1, v := 2, tq := 3, ta := 4, td := 5 }, 1) := by decide
/-- T56: a fourth COMPONENT. -/
theorem test_component_fourth :
    (nextOf (exec (.component 77 1 1 0 0 0) small)).map (fun t => (t.scState, t.out))
      = some (.halted, [.log .tooManyComponents none 0 77, .shutdown .protocol]) := by decide
/-- T14: `tableId = 0x20` is BadId whatever the rest holds. -/
theorem test_hufftable_badId :
    (nextOf (exec (.hufftable 0x20 (lens [3]) []) State.reset)).map (fun t => (t.scState, t.out))
      = some (.halted, [.log .badId none 0 0x20, .shutdown .malformedTable]) := by decide
/-- T1 as a message: byte counts (R94). -/
theorem test_hufftable_T1 :
    (nextOf (exec (.hufftable 0x13 (lens [0, 0, 2, 1]) [0xA, 0xB, 0xC]) State.reset)).map (fun t => (t.htAc[(3 : SlotId)]).entries)
      = some [{ sym := 0xA, len := 3, code := 0 }, { sym := 0xB, len := 3, code := 1 }, { sym := 0xC, len := 4, code := 4 }] := by
  decide
/-- T55: DC12 again after the first MCU. -/
theorem test_hufftable_late :
    (nextOf (exec (.hufftable 0 (lens [0, 1, 5, 1, 1, 1, 1, 1, 1]) dcSymbols) { small with count := 1, expected := 2 })).map
      (fun t => (t.status, t.scState, t.out))
      = some (0b101000, .halted, [.log .unexpectedInState none 1 3, .shutdown .protocol]) := by decide
/-- T16: slot 3, 16-bit entries of 65535. -/
theorem test_quanttable :
    (nextOf (exec (.quanttable 3 true (Vector.replicate 64 65535)) State.reset)).map
      (fun t => ((t.qt[(3 : SlotId)]).valid, (t.qt[(3 : SlotId)]).prec, (t.qt[(3 : SlotId)]).q[(63 : Fin 64)]))
      = some (true, true, 65535) := by decide
/-- P1: the bytes handed off. -/
theorem test_mcu_P1 :
    (nextOf (exec (.mcu (blk [(0, -5), (1, 1)]) (blk []) (blk [(0, 3), (8, -1)])) (setup 8 8))).map
      (fun t => (t.out, t.scState, t.pred.toList.map BitVec.toInt))
      = some ([.scanbuf [0x89, 0x80, 0xFA, 0x3F] 8 8 [] [] 8 0 63 0], .idle, [-5, 0, 3]) := by decide
/-- T54: MCU first. -/
theorem test_mcu_idle :
    (nextOf (exec (.mcu (blk []) (blk []) (blk [])) State.reset)).map (fun t => t.out)
      = some [.log .unexpectedInState none 0 5, .shutdown .protocol] := by decide
/-- P6: a marker ends every block; both MCUs are still delivered. -/
theorem test_cdata_P6 :
    (nextOf (exec (.cdata [0x89, 0xFF, 0xD9]) (setup 8 16))).map
      (fun t => (t.status, t.unp.marker, t.out.length, t.out.getLast?)) = some (0b010100, 0xD9, 9, some (.scandone 2)) := by decide
/-- T54: EOS first. -/
theorem test_eos_idle :
    (nextOf (exec .eos State.reset)).map (fun t => (t.scState, t.out)) = some (.exited, [.eos]) := by decide
/-- P4: EOS in Halted is forwarded. -/
theorem test_eos_halted :
    (nextOf (exec .eos { State.reset with scState := .halted })).map (fun t => (t.scState, t.out))
      = some (.halted, [.eos]) := by decide

/-! ## Symbols -/

/-- T44: field `10` of category 2 after the code `011`, on a predictor of 10. -/
theorem test_dccat :
    (nextOf (exec (.dccat 2) { reading [0x71] 0 3 with pred := Vector.replicate 3 10 })).map
      (fun t => (t.pred[(0 : Chan)], (t.coef[(0 : Chan)])[(0 : Fin 64)], t.unp.ibit, t.latch.k)) = some (12, 12, 5, 1) := by decide
/-- R113 (5): category 17. -/
theorem test_dccat_bad :
    (nextOf (exec (.dccat 17) State.reset)).map (fun t => (t.out, t.status))
      = some ([.log .badCategory (some 0) 0 17], 0b000100) := by decide
/-- T42: symbol 0x41 after ZRL, at position 17: natural index 48. -/
theorem test_acrs :
    (nextOf (exec (.acrs 4 1) { reading [0x80] 0 0 with latch := { ch := 1, k := 17, res := .none } })).map
      (fun t => ((t.coef[(1 : Chan)])[(48 : Fin 64)], t.latch.k)) = some (1, 22) := by decide
/-- T47: symbol 0xF1 at position 49. -/
theorem test_acrs_overflow :
    (nextOf (exec (.acrs 15 1) { reading [0x80] 0 0 with latch := { ch := 0, k := 49, res := .none } })).map
      (fun t => (t.out, t.unp.ibit, t.corrupt)) = some ([.log .indexOverflow (some 0) 0 0xF1], 0, #v[true, false, false]) := by decide
/-- R198: EOB ends the block, ZRL skips sixteen positions. -/
theorem test_eob_zrl :
    (nextOf (exec .eob State.reset)).map (fun t => t.latch.k) = some 64 ∧
    (nextOf (exec .zrl State.reset)).map (fun t => t.latch.k) = some 17 := by decide
/-- R200: skip 1, store 0 at position 2 (natural index 8), no bit read. -/
theorem test_acskip :
    (nextOf (exec (.acskip 1) { reading [0x80] 0 0 with coef := Vector.replicate 3 (Vector.replicate 64 9) })).map
      (fun t => ((t.coef[(0 : Chan)])[(8 : Fin 64)], (t.coef[(0 : Chan)])[(1 : Fin 64)], t.latch.k, t.unp.ibit))
      = some (0, 9, 3, 0) := by decide

/-! ## Table stores -/

/-- R140: `lengths[16] = 257` alone is TooManySymbols, before any other count is looked at. -/
theorem test_buildcodes_R140 :
    (nextOf (exec (.buildcodes 0x13 (Vector.ofFn (fun i => if i.val = 15 then 257 else 0)) []) State.reset)).map (fun t => t.out)
      = some [.log .tooManySymbols none 0 0x13, .shutdown .malformedTable] := by decide
/-- T12: three codes of length 16 after `1`, `2` .. `15` are one too many. -/
theorem test_buildcodes_T12 :
    (nextOf (exec (.buildcodes 0 (Vector.ofFn (fun i => if i.val = 15 then 3 else 1)) (List.replicate 18 0)) loaded)).map
      (fun t => (t.out, (t.htDc[(0 : SlotId)]).valid, (t.htAc[(0 : SlotId)]).valid))
      = some ([.log .overSubscribed none 0 16, .shutdown .malformedTable], false, true) := by decide
/-- T16: id 4 is BadQuantId. -/
theorem test_qtload :
    (nextOf (exec (.qtload 4 false qa) State.reset)).map (fun t => (t.out, t.scState))
      = some ([.log .badQuantId none 0 4, .shutdown .protocol], .halted) := by decide

/-! ## Packer and Unpacker -/

/-- T20. -/
theorem test_putbits_T20 :
    (nextOf (exec (.putbits 0b101 3) State.reset)).map (fun t => t.packer) = some { obuf := [], cur := 0xA0, nbits := 3 } := by decide
/-- T21. -/
theorem test_putbits_T21 :
    (nextOf (exec (.putbits 0x1FF 9) State.reset)).map (fun t => t.packer)
      = some { obuf := [0xFF, 0x00], cur := 0x80, nbits := 1 } := by decide
/-- R151. -/
theorem test_emitbyte :
    (nextOf (exec (.emitbyte 0xFF) (writing [0x12] 0x80 1))).map (fun t => t.packer)
      = some { obuf := [0x12, 0xFF, 0x00], cur := 0x80, nbits := 1 } := by decide
/-- T22: a padded 0xFF is stuffed. -/
theorem test_finalize_T22 :
    (nextOf (exec .finalize (writing [] 0xE0 3))).map (fun t => t.packer) = some { obuf := [0xFF, 0x00], cur := 0, nbits := 0 } := by
  decide
/-- R154. -/
theorem test_prestart : (nextOf (exec .prestart (writing [1] 0x80 1))).map (fun t => t.packer) = some Packer.reset := by decide
/-- T25: `[12 FF D9]`, the ninth read. -/
theorem test_getbit_marker :
    (nextOf (exec .getbit (reading [0x12, 0xFF, 0xD9] 1 0))).map (fun t => (t.latch.res, t.unp.marker, t.unp.eoseg, t.unp.ipos, t.status))
      = some (.fail, 0xD9, true, 1, 0b010000) := by decide
/-- T25: `[FF 00 80]`, the eighth read steps over the stuffed byte. -/
theorem test_getbit_stuffed :
    (nextOf (exec .getbit (reading [0xFF, 0x00, 0x80] 0 7))).map (fun t => (t.latch.res, t.unp.ipos, t.unp.ibit))
      = some (.bit true, 2, 0) := by decide
/-- T26: `GETBITS(3)` on `[A0]`. -/
theorem test_getbits_T26 :
    (nextOf (exec (.getbits 3) (reading [0xA0] 0 0))).map (fun t => (t.latch.res, t.unp.ibit)) = some (.int 5, 3) := by decide
/-- T26: `GETBITS(12)` on `[AB]`. -/
theorem test_getbits_T26_fail :
    (nextOf (exec (.getbits 12) (reading [0xAB] 0 0))).map (fun t => (t.latch.res, t.unp.ipos, t.unp.eoseg))
      = some (.fail, 1, true) := by decide
/-- R162: `STATUS.MRK` is not cleared. -/
theorem test_urestart :
    (nextOf (exec .urestart { reading [1, 2] 1 3 with status := 0b010000 })).map (fun t => (t.unp, t.status))
      = some (Unpacker.reset, 0b010000) := by decide

/-! ## Values and symbols -/

/-- T28. -/
theorem test_category :
    [(0 : Int), 1, -4, 7, 8, -255, 256, 2048, -32768, 65535].map categoryOf = [0, 1, 3, 3, 4, 8, 9, 12, 16, 16] := by decide
/-- T28. -/
theorem test_mag :
    [((2 : Int), 2), (-2, 2), (-4, 3), (-8, 4), (-2047, 11), (-32768, 16)].map (fun p => magField p.1 p.2)
      = [2, 1, 3, 7, 0, 0x7FFF] := by decide
/-- T15: the first of two entries. -/
theorem test_hlookup :
    (nextOf (exec (.hlookup .dc 0 5) (State.reset.setHuff .dc 0 (pairSlot 5 5)))).map (fun t => t.latch.res)
      = some (.codeLen 0 1) := by decide
/-- R175: the code of symbol 0x01 of AC10 is `01`. -/
theorem test_emitsym :
    (nextOf (exec (.emitsym .ac 0 0x01) loaded)).map (fun t => (t.packer.cur, t.packer.nbits)) = some (0x40, 2) := by decide
/-- T33: `00. 1110. 1101.1 00.`. -/
theorem test_encodeBlock_T33 :
    (nextOf (exec (.encodeBlock 0) { setup 8 8 with coef := #v[blk32 [(48, 1)], zeroBlock, zeroBlock] })).map
      (fun t => t.packer) = some { obuf := [0x3B], cur := 0x60, nbits := 5 } := by decide
/-- `{0:2048}`: no symbol for category 12, the predictor written all the same (2.4, Failures). -/
theorem test_encodeBlock_noDc :
    (nextOf (exec (.encodeBlock 0) { setup 8 8 with coef := #v[blk32 [(0, 2048)], zeroBlock, zeroBlock] })).map
      (fun t => (t.packer, t.pred[(0 : Chan)], t.out))
      = some (Packer.reset, 2048, [.log .noDcSymbol (some 0) 0 12]) := by decide
/-- T48: sixteen 1 bits are no code. -/
theorem test_hdecode_T48 :
    (nextOf (exec (.hdecode .ac 0) { loaded with unp := { Unpacker.reset with ibuf := [0x3F, 0xFF, 0x00, 0xCF], ibit := 2 } })).map
      (fun t => (t.latch.res, t.unp.ipos, t.unp.ibit)) = some (.failCause .noCode, 3, 2) := by decide
/-- T9: field 2 in category 3 is -5, field 5 is 5. -/
theorem test_unmag : (unmagField 2 3, unmagField 5 3, unmagField 0 0) = (-5, 5, 0) := by decide
/-- T41: field `010` of category 3. -/
theorem test_recvval :
    (nextOf (exec (.recvval 3) (reading [0x89, 0x9F] 0 3))).map (fun t => (t.latch.res, t.unp.ibit)) = some (.int (-5), 6) := by decide
/-- T46: a coefficient at position 63, no EOB read. -/
theorem test_decodeBlock_T46 :
    (nextOf (exec (.decodeBlock 0) { setup 8 8 with unp := { Unpacker.reset with ibuf := [0x3B, 0xBB, 0xDD, 0xFF, 0x00] } })).map
      (fun t => (t.coef[(0 : Chan)], t.unp.ipos, t.unp.ibit)) = some (blk32 [(63, 1)], 2, 4) := by decide
/-- BadCategory: one bit consumed, `aux = 0x11` (2.5). -/
theorem test_decodeBlock_badCategory :
    (nextOf (exec (.decodeBlock 0) { small with unp := { Unpacker.reset with ibuf := [0x80] } })).map
      (fun t => (t.out, t.unp.ibit)) = some ([.log .badCategory (some 0) 0 0x11], 1) := by decide

/-! ## Quantizer and controller -/

/-- T50, T53. -/
theorem test_dequantize :
    (nextOf (exec .dequantize { setup 8 8 with coef := #v[blk32 [(0, 2047), (1, 3), (63, -1)], blk32 [(0, 95), (1, 2)], zeroBlock] })).map
      (fun t => t.coef) = some #v[blk32 [(0, 2047), (1, 6), (63, -64)], blk32 [(0, 190), (1, 4)], zeroBlock] := by decide
/-- T52. -/
theorem test_quantize :
    (nextOf (exec .quantize { setup 8 8 with coef := #v[blk32 [(0, -5), (1, 3), (8, -4)], blk32 [(0, 7), (1, 3)],
        blk32 [(0, -3), (1, -1), (8, 1)]] })).map (fun t => t.coef)
      = some #v[blk32 [(0, -5), (1, 2)], blk32 [(0, 4), (1, 2)], blk32 [(0, -2), (1, -1), (8, 1)]] := by decide
/-- T51. -/
theorem test_rhaz :
    [((3 : Int), 2), (-3, 2), (-1, 2), (7, 16), (8, 16), (-24, 16), (-5, 9), (0, 7)].map (fun p => rhaz p.1 p.2)
      = [2, -2, -1, 0, 1, -2, -1, 0] := by decide
/-- P8: fewer than three components. -/
theorem test_precheck :
    (nextOf (exec (.precheck false) { small with ncomp := 0, status := 0b100000 })).map (fun t => (t.out, t.status, t.scState))
      = some ([.log .missingSetup none 0 3, .shutdown .protocol], 0b101000, .halted) := by decide
/-- R230: `CUR` of P1 finalized and handed off. -/
theorem test_completeEnc :
    (nextOf (exec .completeEnc { small with packer := { obuf := [0x89], cur := 0x80, nbits := 2 } })).map (fun t => (t.out, t.scState))
      = some ([.scanbuf [0x89, 0xBF] 8 8 [] [] 0 0 0 0], .idle) := by decide
/-- R231. -/
theorem test_completeDec :
    (nextOf (exec .completeDec small)).map (fun t => (t.out, t.scState)) = some ([.scandone 1], .idle) := by decide

/-- The state of SETUP(8, 16) as the spec gives it (section 0). -/
theorem test_setup :
    (setup 8 16).scState = .scanActive ∧ (setup 8 16).expected = 2 ∧ (setup 8 16).ncomp = 3 ∧ (setup 8 16).status = 0 ∧
    (setup 8 16).out = [] := by decide
/-- An empty input port: CORE waits (R74). -/
theorem test_step_waits : (nextOf (step State.reset)).map (fun t => decide (t = State.reset)) = some true := by decide
/-- A fetched word runs as the next step. -/
theorem test_withFetchWord : (nextOf (step (State.reset.withFetchWord 8 0x07))).map (fun t => t.scState) = some .exited := by decide

/-! ## Witnesses: concrete states and operands that meet the hypotheses of each obligation, clause by clause -/

theorem test_witness_MessageEncodeDecodeRoundTrip :
    encodeRecord (.cdata [0xFF, 0xD9]) = some [6, 0, 0, 0, 2, 0xFF, 0xD9] ∧ (Instr.cdata [0xFF, 0xD9]).wellFormed = true := by decide
theorem test_witness_DecodedRecordIsItsOwnImage : decodeRecord [2, 255, 0, 0, 0, 0, 255] = .ok (.component 255 0 0 0 0 255) := by
  decide
theorem test_witness_SymbolBytesHaveOneReading :
    (16#5).toNat ≤ 16 ∧ (Instr.acskip 14).layer = .symbol ∧ (Instr.acskip 14).wellFormed = true ∧ (∀ c, Instr.acskip 14 ≠ .dccat c) ∧
    16 < (17 : Byte).toNat := by
  refine ⟨by decide, rfl, by decide, ?_, by decide⟩
  intro c h; cases h

/-- All three clauses: a record, an empty port, an operation in the issue register. -/
theorem test_witness_StepRunsTheDecodedMessage :
    (State.reset.issue = none ∧ ({ State.reset with inp := [[7], [8]] } : State).inp = [7] :: [[8]] ∧ decodeRecord [7] = .ok .eos) ∧
    (State.reset.issue = none ∧ State.reset.inp = []) ∧ (State.reset.place .getbit).issue = some .getbit := by decide
/-- Kind 0 and kind 8, live and terminal. -/
theorem test_witness_UnknownKindIsAViolation :
    (State.reset.issue = none ∧ ({ State.reset with inp := [[0]] } : State).inp = (0 :: []) :: [] ∧ ((0 : Byte) = 0 ∨ 7 < (0 : Byte).toNat) ∧
      (State.reset.scState = .idle ∨ State.reset.scState = .scanActive)) ∧
    (({ State.reset with inp := [[8, 1]], scState := .halted } : State).inp = (8 :: [1]) :: [] ∧ ((8 : Byte) = 0 ∨ 7 < (8 : Byte).toNat)) := by
  decide
theorem test_witness_MessagesAlwaysComplete : small.issue = none := by decide
theorem test_witness_ErrorEntryByClass :
    (Cause.noDcSymbol.kind = .encode ∧ Cause.indexOverflow.kind = .decode) ∧
    (Cause.overSubscribed.kind = .malformedTable ∧ Cause.missingSetup.kind = .protocol) := by decide
/-- Both rows of "V" cells. -/
theorem test_witness_UnexpectedMessageIsAViolation :
    (msgKind (.cdata []) = some .cdata ∧ State.reset.scState = .idle) ∧
    (msgKind (.hufftable 0 (lens []) []) = some .hufftable ∧ ({ small with count := 1 } : State).scState = .scanActive ∧
      ({ small with count := 1 } : State).count ≠ 0) := by decide
theorem test_witness_TerminalStatesDropMessages :
    msgKind .eos = some .eos ∧ msgKind (.component 0 0 0 0 0 0) = some .component ∧ MsgKind.component ≠ .eos ∧
    ({ State.reset with scState := .halted } : State).scState = .halted ∧
    ({ State.reset with scState := .exited } : State).scState = .exited := by decide
theorem test_witness_HeaderOpensScan :
    State.reset.scState = .idle ∧ small.scState = .scanActive ∧ (1 : Half) ≠ 0 ∧ (65535 : Half) ≠ 0 := by decide
theorem test_witness_HeaderZeroDimensionIsRefused : State.reset.scState = .idle ∧ ((8 : Half) = 0 ∨ (0 : Half) = 0) := by decide
/-- Both clauses, the last free slot and none. -/
theorem test_witness_ComponentFillsTheNextSlot :
    small.scState = .scanActive ∧ small.count = 0 ∧ ({ small with ncomp := 2 } : State).ncomp.val < 3 ∧ small.ncomp = 3 := by decide

/-- The largest table that fits: lengths `1, 1, .., 1, 2` (T12). -/
theorem test_witness_BuildcodesAssignsCanonicalCodes :
    let lengths : Vector Half 16 := Vector.ofFn (fun i => if i.val = 15 then 2 else 1)
    (histogram lengths).sum ≤ 256 ∧ (List.replicate 17 (0 : Byte)).length = (histogram lengths).sum ∧
    (∀ l, l < 16 → firstCode (histogram lengths) (l + 1) + (histogram lengths).getD l 0 ≤ 2 ^ (l + 1)) ∧
    lengths = wideLengths (Vector.ofFn (fun i => if i.val = 15 then 2 else 1)) ∧ State.reset.scState = .idle := by decide
/-- That bound over `l < 16` is `fitsCodeSpace`. -/
theorem test_fitsCodeSpace_of_bounded {lengths : List Nat}
    (h : ∀ l, l < 16 → firstCode lengths (l + 1) + lengths.getD l 0 ≤ 2 ^ (l + 1)) : fitsCodeSpace lengths := by
  intro l h1 h2
  obtain ⟨m, rfl⟩ : ∃ m, l = m + 1 := ⟨l - 1, by omega⟩
  exact h m (by omega)
/-- The three causes of a legal id and the illegal ids 0x04 and 0x20. -/
theorem test_witness_MalformedTableHaltsTheStream :
    ((4 : Byte).toNat / 32 ≠ 0 ∨ 4 ≤ (4 : Byte).toNat % 16) ∧ ((0x20 : Byte).toNat / 32 ≠ 0 ∨ 4 ≤ (0x20 : Byte).toNat % 16) ∧
    vec 16 [2, 1] = wideLengths (lens [2, 1]) ∧ (0x13 : Byte) = tableIdOf .ac 3 ∧ 256 < (histogram (vec 16 [1, 256])).sum ∧
    ((histogram (vec 16 [1])).sum ≤ 256 ∧ ([] : List Byte).length ≠ (histogram (vec 16 [1])).sum) ∧
    ((histogram (vec 16 [2, 1])).sum ≤ 256 ∧ [0, 1, (2 : Byte)].length = (histogram (vec 16 [2, 1])).sum ∧ (2 : Byte) = BitVec.ofNat 8 2 ∧
      2 ^ 2 < firstCode (histogram (vec 16 [2, 1])) 2 + (histogram (vec 16 [2, 1])).getD 1 0 ∧
      firstCode (histogram (vec 16 [2, 1])) 1 + (histogram (vec 16 [2, 1])).getD 0 0 ≤ 2 ^ 1) := by decide
theorem test_witness_BuiltCodesArePrefixFree :
    buildEntries 0 (vec 16 [2]) [5, 6] = .ok [{ sym := 5, len := 1, code := 0 }, { sym := 6, len := 1, code := 1 }] := by decide
theorem test_witness_QtloadReplacesTheSlot : (3 : Byte).toNat < 4 ∧ 4 ≤ (4 : Byte).toNat := by decide

/-- PUTBITS and FINALIZE: a well-formed Packer in mid-byte, and one on a byte boundary. -/
theorem test_witness_PutbitsAppendsBits :
    (writing [0xFF, 0x00] 0x80 1).packer.wf ∧ State.reset.packer.wf ∧ State.reset.packer.nbits = 0 := by
  unfold Packer.wf; decide
/-- The five clauses of GETBIT: ended, exhausted, a last 0xFF, a marker, a bit before and behind a stuffed byte. -/
theorem test_witness_GetbitReadsOneBit :
    ({ Unpacker.reset with eoseg := true } : Unpacker).eoseg = true ∧
    ((reading [0x12] 1 0).unp.eoseg = false ∧ (reading [0x12] 1 0).unp.ibuf[1]? = none) ∧
    ((reading [0xFF] 0 0).unp.ibuf[0]? = some 0xFF ∧ (reading [0xFF] 0 0).unp.ibuf[0 + 1]? = none) ∧
    ((reading [0xFF, 0xD9] 0 0).unp.ibuf[0]? = some 0xFF ∧ (0xD9 : Byte) ≠ 0 ∧ (reading [0xFF, 0xD9] 0 0).unp.ibuf[0 + 1]? = some 0xD9) ∧
    ((reading [0xFF, 0x00] 0 7).unp.ibuf[0]? = some 0xFF ∧ (reading [0xFF, 0x00] 0 0).unp.ibuf[0 + 1]? = some 0) := by decide
/-- A read that succeeds, one that runs out, one that meets a marker; GETBITS, RECVVAL, DCCAT and ACRS share these. -/
theorem test_witness_GetbitsReadsAValue :
    Unpacker.reads [true, false] (reading [0xA0] 0 0).unp = some (reading [0xA0] 0 2).unp ∧
    Unpacker.reads [true] (reading [0x01] 0 7).unp = some (reading [0x01] 1 0).unp ∧
    (reading [0x01] 1 0).unp.getBit = .fail false { (reading [0x01] 1 0).unp with eoseg := true } ∧
    Unpacker.reads [true] (reading [0x01, 0xFF, 0xD9] 0 7).unp = some (reading [0x01, 0xFF, 0xD9] 1 0).unp ∧
    (reading [0x01, 0xFF, 0xD9] 1 0).unp.getBit
      = .fail true { (reading [0x01, 0xFF, 0xD9] 1 0).unp with eoseg := true, marker := 0xD9 } := by decide
theorem test_witness_EndedSegmentDeliversNothing :
    ({ small with unp := { Unpacker.reset with eoseg := true, marker := 0xD9 } } : State).unp.eoseg = true := by decide

/-- The bounds of a category: 0, and the category-3 values -7 and 4. -/
theorem test_witness_MagAndUnmagAreInverse :
    ((0 : Int).natAbs < 2 ^ 0) ∧ ((-7 : Int).natAbs < 2 ^ 3 ∧ 2 ^ (3 - 1) ≤ (-7 : Int).natAbs) ∧
    ((4 : Int).natAbs < 2 ^ 3 ∧ 2 ^ (3 - 1) ≤ (4 : Int).natAbs) ∧ (1 ≤ 3 ∧ 7 < 2 ^ 3) := by decide
/-- RECVVAL of -5 (T41), and of nothing. -/
theorem test_witness_RecvvalReadsTheValue :
    ((-5 : Int).natAbs < 2 ^ 3 ∧ 2 ^ (3 - 1) ≤ (-5 : Int).natAbs ∧
      Unpacker.reads (msbBits (magField (-5) 3).toNat 3) (reading [0x89, 0x9F] 0 3).unp = some (reading [0x89, 0x9F] 0 6).unp) ∧
    ((0 : Int).natAbs < 2 ^ 0 ∧ Unpacker.reads (msbBits (magField 0 0).toNat 0) (reading [] 0 0).unp = some (reading [] 0 0).unp) := by
  decide
/-- The first and the second entry, and a symbol that is absent. -/
theorem test_witness_HlookupReturnsTheFirstEntry :
    small.packer.wf ∧ (small.huff .ac 0).entries[1]? = some { sym := 1, len := 1, code := 1 } ∧
    (∀ j' e', j' < 1 → (small.huff .ac 0).entries[j']? = some e' → e'.sym ≠ 1) ∧ (∀ e ∈ (small.huff .ac 0).entries, e.sym ≠ 2) := by
  refine ⟨by unfold Packer.wf; decide, by decide, ?_, by decide⟩
  intro j e hj he
  obtain rfl : j = 0 := by omega
  cases he; decide
/-- HDECODE: a slot that is well formed and valid, a code read, no code in sixteen bits (an empty table), a failed read. -/
theorem test_witness_HdecodeReadsOneCode :
    ((small.huff .dc 0).wf ∧ (small.huff .dc 0).valid = true ∧ { sym := 17, len := 1, code := 1 } ∈ (small.huff .dc 0).entries ∧
      Unpacker.reads (HuffEntry.bits { sym := 17, len := 1, code := 1 }) (reading [0x80] 0 0).unp = some (reading [0x80] 0 1).unp) ∧
    (HuffSlot.wf { HuffSlot.reset with valid := true } ∧ (List.replicate 16 false).length = 16 ∧
      Unpacker.reads (List.replicate 16 false) (reading [0, 0] 0 0).unp = some (reading [0, 0] 2 0).unp) ∧
    (Unpacker.reads [false] (reading [0] 0 7).unp = some (reading [0] 1 0).unp ∧
      (reading [0] 1 0).unp.getBit = .fail false { (reading [0] 1 0).unp with eoseg := true }) := by
  unfold HuffSlot.wf; decide

/-- ENCODE_BLOCK: a well-formed Packer, and the symbol of the DC category absent (category 1). -/
theorem test_witness_EncodeBlockEffect :
    small.packer.wf ∧
    ((((blk32 [(0, 1)])[(0 : Fin 64)]).toInt - (small.pred[(0 : Chan)]).toInt).natAbs < 2 ^ 1 ∧
      2 ^ (1 - 1) ≤ (((blk32 [(0, 1)])[(0 : Fin 64)]).toInt - (small.pred[(0 : Chan)]).toInt).natAbs ∧
      ∀ e ∈ (small.dcTable 0).entries, e.sym ≠ BitVec.ofNat 8 1) := by
  unfold Packer.wf; decide
/-- The items of T33 (one ZRL), T35 (a run of 15), T36 (a run of 16) and T37 (three ZRLs, no EOB) as section 2.4 lists them. -/
theorem test_acItems :
    acItems (blk32 [(48, 1)]) = [.zrl, .coef 4 1, .eob] ∧ acItems (blk32 [(12, 1)]) = [.coef 15 1, .eob] ∧
    acItems (blk32 [(19, -1)]) = [.zrl, .coef 0 (-1), .eob] ∧ acItems (blk32 [(63, 1)]) = [.zrl, .zrl, .zrl, .coef 14 1] := by decide
/-- Both clauses: a block that is written, and one whose second item fails (`small` has no symbol 0x02). -/
theorem test_witness_EncodeBlockWritesItsItems :
    itemsBits (small.acTable 0) (acItems (blk32 [(1, 1)])) = some [true, true, false] ∧
    (acItems (blk32 [(1, 1), (8, 3)]) = [.coef 0 1] ++ .coef 0 3 :: [.eob] ∧
      itemsBits (small.acTable 0) [.coef 0 1] = some [true, true] ∧ (AcItem.coef 0 3).bits (small.acTable 0) = none) ∧
    small.packer.wf ∧ (∀ i : Fin 64, i ≠ 0 → small.coef[(0 : Chan)][i] = 0) ∧
    ((small.coef[(0 : Chan)][(0 : Fin 64)]).toInt - (small.pred[(0 : Chan)]).toInt).natAbs < 2 ^ 0 ∧
    (small.dcTable 0).lookup (BitVec.ofNat 8 0) = some { sym := 0, len := 1, code := 0 } ∧
    (small.acTable 0).lookup 0x00 = some { sym := 0, len := 1, code := 0 } := by
  refine ⟨by decide, ⟨by decide, by decide, by decide⟩, by unfold Packer.wf; decide, by decide, by decide, by decide, by decide⟩
/-- DECODE_BLOCK: a DC symbol 17 read. -/
theorem test_witness_DecodeBlockEffect :
    (small.dcTable 0).wf ∧ (small.dcTable 0).valid = true ∧ { sym := 17, len := 1, code := 1 } ∈ (small.dcTable 0).entries ∧
    16 < (17 : Byte).toNat ∧
    Unpacker.reads (HuffEntry.bits { sym := 17, len := 1, code := 1 }) (reading [0x80] 0 0).unp = some (reading [0x80] 0 1).unp := by
  unfold HuffSlot.wf; decide
/-- A block read through its symbols: EOB at position 1 ends it. -/
theorem test_witness_BlockRun :
    ∃ t, AcRun (small.acTable 0) { small with unp := { Unpacker.reset with ibuf := [0x00] } } .ok t :=
  ⟨_, .item (sym := 0) (by decide) rfl rfl rfl (.done (by decide))⟩
/-- A zero block: two bits `00` out, and the same two bits in. -/
theorem test_witness_BlockRoundTrip :
    (small.dcTable 0).wf ∧ (small.acTable 0).wf ∧ (small.dcTable 0).valid = true ∧ (small.acTable 0).valid = true ∧
    exec (.encodeBlock 0) small = .next (State.returning .ok (small.encodeBlock 0).2) ∧
    (small.encodeBlock 0).2.packer.bits = small.packer.bits ++ [false, false] ∧
    Unpacker.reads [false, false] (reading [0x3F] 0 0).unp = some (reading [0x3F] 0 2).unp := by
  refine ⟨by unfold HuffSlot.wf; decide, by unfold HuffSlot.wf; decide, by decide, by decide, rfl, by decide, by decide⟩

/-- The open scan `small` meets the invariant. -/
theorem test_small_inv : small.Inv where
  issueEmpty := by decide
  countBelow := by decide
  countAtMost := by decide
  expectedOfHeader := by decide
  headerSeen := by decide
  haltedIff := by decide
  markerRecorded := by decide
  unpackerFresh := by decide
  packerEmpty := by decide
  predFresh := by decide
  predRange := by decide
  tablesHeld := by decide
  packerWf := by unfold Packer.wf; decide
  unpackerWf := by unfold Unpacker.wf; decide
  quantWf := by unfold QuantSlot.wf; decide
  huffWf := by
    intro cls
    unfold HuffSlot.wf
    cases cls <;> decide
/-- A scan of one MCU of zero blocks: six bits 0, padded with 1 bits. -/
theorem test_witness_ScanRoundTrip :
    small.Inv ∧ small.scState = .scanActive ∧ small.count = 0 ∧ small.params.quantOnEncode = false ∧
    small.precheckFailure true = none ∧ [(blk [], blk [], blk [])].length = small.expected.toNat ∧
    (nextOf (encodeMcus [(blk [], blk [], blk [])] small)).map (fun t => t.out)
      = some (small.out ++ [.scanbuf [0x03] small.hdr.height small.hdr.width small.hdr.filename small.hdr.frameType
          small.hdr.precision small.hdr.ss small.hdr.se small.hdr.sa]) :=
  ⟨test_small_inv, by decide, by decide, by decide, by decide, by decide, by decide⟩

/-- DCCAT: category 0 and 16 (the largest), read, failed, illegal. -/
theorem test_witness_DccatAddsTheDifference :
    ((0#5).toNat ≤ 16 ∧ (0 : Int).natAbs < 2 ^ (0#5).toNat ∧
      Unpacker.reads (msbBits (magField 0 0).toNat 0) (reading [] 0 0).unp = some (reading [] 0 0).unp) ∧
    ((16#5).toNat ≤ 16 ∧ (-32768 : Int).natAbs < 2 ^ (16#5).toNat ∧ 2 ^ ((16#5).toNat - 1) ≤ (-32768 : Int).natAbs ∧
      Unpacker.reads (msbBits (magField (-32768) 16).toNat 16) (reading [0x7F, 0xFF, 0x00] 0 0).unp
        = some (reading [0x7F, 0xFF, 0x00] 3 0).unp) ∧
    (([] : List Bool).length < (16#5).toNat ∧ (reading [] 0 0).unp.getBit = .fail false { (reading [] 0 0).unp with eoseg := true }) ∧
    16 < (17#5).toNat := by decide
/-- ACRS: position 63, the last; position 64, beyond it; a failed read. -/
theorem test_witness_AcrsStoresTheCoefficient :
    (49 + (14#4).toNat ≤ 63 ∧ (1 : Int).natAbs < 2 ^ (1#4).toNat ∧ 2 ^ ((1#4).toNat - 1) ≤ (1 : Int).natAbs ∧
      Unpacker.reads (msbBits (magField 1 1).toNat 1) (reading [0x80] 0 0).unp = some (reading [0x80] 0 1).unp) ∧
    (([] : List Bool).length < (1#4).toNat ∧ (reading [] 0 0).unp.getBit = .fail false { (reading [] 0 0).unp with eoseg := true }) ∧
    63 < 49 + (15#4).toNat := by decide
theorem test_witness_BitlessSymbolsMoveThePosition : 62 + (1#4).toNat ≤ 63 ∧ 63 < 63 + (1#4).toNat := by decide

/-- QUANTIZE: a zero entry and another. -/
theorem test_witness_QuantizeRoundsAndLogsZeroDivisors :
    (State.reset.quantTable 0)[(0 : Fin 64)] = 0 ∧ (small.quantTable 0)[(0 : Fin 64)] ≠ 0 := by decide
theorem test_witness_RhazRoundsHalfAwayFromZero :
    0 < 16 ∧ 2 * ((8 : Int) - rhaz 8 16 * (16 : Nat)).natAbs = 16 := by decide

/-- The pre-check: it passes; two components; channel 2 the first that fails. -/
theorem test_witness_PrecheckVerdict :
    small.precheckFailure true = none ∧ small.ncomp = 3 ∧ ({ small with ncomp := 2 } : State).ncomp ≠ 3 ∧
    ({ small with comp := small.comp.set 2 { CompSlot.reset with ta := 1 } } : State).precheckFailure false = some 2 := by decide
theorem test_witness_MissingSetupIsAViolation :
    let s : State := { small with ncomp := 2 }
    s.scState = .scanActive ∧ s.count = 0 ∧ s.precheckFailure s.params.quantOnEncode = some 3 ∧ s.precheckFailure true = some 3 := by
  decide
/-- The last MCU of a scan, and one before the last. -/
theorem test_witness_McuEncodesAndCounts :
    small.scState = .scanActive ∧ small.precheckFailure small.params.quantOnEncode = none ∧ small.count + 1 = small.expected ∧
    ({ small with expected := 2 } : State).count + 1 ≠ ({ small with expected := 2 } : State).expected ∧
    small.params.quantOnEncode = false ∧
    ({ small with params := { quantOnEncode := true } } : State).precheckFailure true = none ∧
    (small.quantTable 0)[(0 : Fin 64)] ≠ 0 ∧ small.packer.wf := by
  unfold Packer.wf; decide
theorem test_witness_CdataDecodesTheWholeScan :
    small.scState = .scanActive ∧ small.count = 0 ∧ small.precheckFailure true = none := by decide
theorem test_witness_EosClosesTheStream : State.reset.scState = .idle ∧ small.scState = .scanActive := by decide

/-- A step of a state that meets the invariant: EOS at the port of `small`. -/
theorem test_witness_StepKeepsInvariant : ∃ t, small.Inv ∧ step { small with inp := [[7]] } = .next t := ⟨_, test_small_inv, rfl⟩
theorem test_witness_StatusFlagsAreSticky :
    ∃ t, step ({ State.reset with status := 0b000001, scState := .halted } : State) = .next t ∧
      (0b000001#6).getLsbD (0 : Fin 6).val = true := ⟨_, rfl, by decide⟩
theorem test_witness_EventsAreOnlyAppended : ∃ t, step State.reset = .next t := ⟨_, rfl⟩
theorem test_witness_OnlyResetLeavesATerminalState :
    ∃ t, Host.Core.run Sys2Proof.core 2 ({ State.reset with scState := .halted, inp := [[7], [9]] } : State) = .next t := ⟨_, rfl⟩
theorem test_witness_TablesAreFrozenInAScan :
    ∃ t, small.issue = none ∧ small.scState = .scanActive ∧ ({ small with count := 1 } : State).count ≠ 0 ∧
      step { small with count := 1, inp := [[7]] } = .next t := ⟨_, by decide, by decide, by decide, rfl⟩
theorem test_witness_SamplingFactorsAreNeverRead : ∃ t, (Instr.eos).layer = .message ∧ exec .eos small = .next t := ⟨_, rfl, rfl⟩

end Sys2Proof.Tests
end

section
/-! PROOFS. A fatal error (R272), and HUFFTABLE and QUANTTABLE where they are accepted (R222). -/

namespace Sys2Proof.Machine

open Sys2Proof

/-- A fatal error names no channel, so it marks none (R270). -/
theorem State.markCorrupt_of_fatal (s : State) {k : ErrKind} (ch : Option Chan) (h : k.fatal = true) :
    s.markCorrupt k ch = s := by
  cases k with
  | malformedTable => rfl
  | protocol => rfl
  | encode => cases h
  | decode => cases h

theorem ErrKind.flag_of_fatal {k : ErrKind} (h : k.fatal = true) :
    k.flag = if k = .malformedTable then flagMte else flagPv := by
  cases k with
  | malformedTable => rfl
  | protocol => rfl
  | encode => cases h
  | decode => cases h

/-- The entry and the shutdown of an error of the fatal class (R260, R270, R272). -/
theorem State.raise_fatal (s : State) {c : Cause} (aux : Byte) (h : c.kind.fatal = true) :
    s.raise c none aux = s.afterFatal c aux := by
  unfold State.raise State.afterFatal
  simp only [State.markCorrupt_of_fatal _ none h, ErrKind.flag_of_fatal h, h, if_true]
  by_cases hs : s.scState = .scanActive <;>
    simp [State.shutDown, State.emit, State.setFlag, flagMte, flagPv, flagAbn, hs]

/-- An accepted message runs its rule (R220). -/
theorem State.onMessage_of_accept {s : State} {k : MsgKind} (act : State → State) (h : s.verdict k = .accept) :
    s.onMessage k act = act s := by
  simp [State.onMessage, h]

/-- The rows HUFFTABLE and QUANTTABLE of the acceptance table (R222). -/
theorem State.verdict_of_acceptsTables {s : State} {k : MsgKind} (hk : k = .hufftable ∨ k = .quanttable)
    (h : s.acceptsTables) : s.verdict k = .accept := by
  obtain hs | ⟨hs, hc⟩ := h <;> obtain rfl | rfl := hk <;> simp_all [State.verdict, Machine.verdict]

end Sys2Proof.Machine
end

section
/-! PROOFS. QTLOAD and QUANTTABLE on the quantization store (R141, R226). -/

namespace Sys2Proof.Machine

open Sys2Proof

/-- A table id below the number of slots is that slot's index (R63). -/
theorem slotOf_val_of_lt {id : Byte} (h : id.toNat < 4) : (slotOf id).val = id.toNat := Nat.mod_eq_of_lt h

theorem State.qtLoad_of_lt (s : State) {id : Byte} (prec : Bool) (table : HalfBlock) (h : id.toNat < 4) :
    s.qtLoad id prec table = { s with qt := s.qt.set id.toNat { valid := true, prec := prec, q := table } h } := by
  rw [State.qtLoad, if_neg (show ¬ Config.nqt ≤ id.toNat from Nat.not_le.mpr h)]
  simp only [slotOf_val_of_lt h]

theorem State.qtLoad_of_le (s : State) {id : Byte} (prec : Bool) (table : HalfBlock) (h : 4 ≤ id.toNat) :
    s.qtLoad id prec table = s.afterFatal .badQuantId id :=
  (if_pos (show Config.nqt ≤ id.toNat from h)).trans (s.raise_fatal id rfl)

theorem exec_qtload (s : State) (id : Byte) (prec : Bool) (table : HalfBlock) :
    exec (.qtload id prec table) s = .next (s.qtLoad id prec table) := rfl

/-- QUANTTABLE is QTLOAD where it is accepted (R226). -/
theorem exec_quanttable_of_acceptsTables {s : State} (id : Byte) (prec : Bool) (table : HalfBlock) (h : s.acceptsTables) :
    exec (.quanttable id prec table) s = .next (s.qtLoad id prec table) :=
  congrArg Host.Outcome.next (State.onMessage_of_accept _ (State.verdict_of_acceptsTables (.inr rfl) h))

/-- Settles O19: QTLOAD by the two ranges of the id, and an accepted QUANTTABLE is QTLOAD. -/
theorem qtloadReplacesTheSlot : Obligations.QtloadReplacesTheSlot := by
  unfold Obligations.QtloadReplacesTheSlot
  intro s id prec table
  constructor
  · intro h
    rw [← s.qtLoad_of_lt prec table h]
    exact ⟨exec_qtload s id prec table, exec_quanttable_of_acceptsTables id prec table⟩
  · intro h
    rw [← s.qtLoad_of_le prec table h]
    exact ⟨exec_qtload s id prec table, exec_quanttable_of_acceptsTables id prec table⟩

end Sys2Proof.Machine
end

section
/-! PROOFS. The codes a successful build assigns (R131 to R134), through their spans: the binary fractions that start with the
code. The span of a code lies within those of the codes it begins with, and assignment lays the spans side by side. -/

namespace Sys2Proof.Machine

open Sys2Proof

/-! ## Spans and prefixes -/

theorem HuffEntry.spanLo_lt_spanHi (e : HuffEntry) : e.spanLo < e.spanHi :=
  Nat.mul_lt_mul_of_pos_right (Nat.lt_succ_self _) (Nat.two_pow_pos _)

/-- The span of a code lies within the span of each code it begins with. -/
theorem HuffEntry.prefixes.span_subset {a b : HuffEntry} (h : a.prefixes b) (hb : b.len.toNat ≤ 16) :
    a.spanLo ≤ b.spanLo ∧ b.spanHi ≤ a.spanHi := by
  obtain ⟨hlen, hcode⟩ := h
  have hscale : 2 ^ (16 - a.len.toNat) = 2 ^ (b.len.toNat - a.len.toNat) * 2 ^ (16 - b.len.toNat) := by
    rw [← Nat.pow_add]; congr 1; omega
  have hlo := (Nat.le_div_iff_mul_le (Nat.two_pow_pos _)).mp hcode.ge
  have hhi := Nat.lt_mul_of_div_lt (Nat.lt_succ_of_le hcode.le) (Nat.two_pow_pos _)
  unfold HuffEntry.spanLo HuffEntry.spanHi
  rw [hscale, ← Nat.mul_assoc, ← Nat.mul_assoc]
  exact ⟨Nat.mul_le_mul_right _ hlo, Nat.mul_le_mul_right _ hhi⟩

/-- Of two codes whose spans lie side by side neither begins with the other. -/
theorem HuffEntry.not_prefixes_of_spans {a b : HuffEntry} (ha : a.len.toNat ≤ 16) (hb : b.len.toNat ≤ 16)
    (h : a.spanHi ≤ b.spanLo) : ¬ a.prefixes b ∧ ¬ b.prefixes a := by
  have hla := a.spanLo_lt_spanHi
  have hlb := b.spanLo_lt_spanHi
  constructor
  · intro hp
    obtain ⟨-, hhi⟩ := hp.span_subset hb
    omega
  · intro hp
    obtain ⟨hlo, -⟩ := hp.span_subset ha
    omega

/-- Every code begins with itself. -/
theorem HuffEntry.prefixes_of_eq {a b : HuffEntry} (h : (a.len, a.code) = (b.len, b.code)) : a.prefixes b := by
  obtain ⟨hlen, hcode⟩ := Prod.mk.inj h
  simp [HuffEntry.prefixes, hlen, hcode]

/-! ## The codes of one length -/

/-- Codes that fit their length are stored as assigned: an entry's length is `l`, and its code is one of the consecutive ones. -/
theorem codesOfLength_bounds {l code : Nat} {syms : List Byte} {e : HuffEntry} (hl : l ≤ 16)
    (hfit : code + syms.length ≤ 2 ^ l) (he : e ∈ codesOfLength l code syms) :
    e.len.toNat = l ∧ code ≤ e.code.toNat ∧ e.code.toNat < code + syms.length := by
  obtain ⟨j, hj⟩ := List.mem_iff_getElem?.mp he
  rw [codesOfLength_getElem?, Option.map_eq_some_iff] at hj
  obtain ⟨sym, hsym, rfl⟩ := hj
  have hjlt : j < syms.length := (List.getElem?_eq_some_iff.mp hsym).1
  have hpow : 2 ^ l ≤ 2 ^ 16 := Nat.pow_le_pow_right (by decide) hl
  have hcode : (BitVec.ofNat 16 (code + j)).toNat = code + j := by
    rw [BitVec.toNat_ofNat]; exact Nat.mod_eq_of_lt (by omega)
  refine ⟨?_, ?_, ?_⟩
  · rw [BitVec.toNat_ofNat]; exact Nat.mod_eq_of_lt (by omega)
  · simp only [hcode]; omega
  · simp only [hcode]; omega

/-- The spans of one length rise. -/
theorem codesOfLength_spans {l code : Nat} {syms : List Byte} (hl : l ≤ 16) (hfit : code + syms.length ≤ 2 ^ l) :
    (codesOfLength l code syms).Pairwise (fun a b => a.spanHi ≤ b.spanLo) := by
  induction syms generalizing code with
  | nil => exact .nil
  | cons sym syms ih =>
    rw [List.length_cons] at hfit
    refine List.pairwise_cons.mpr ⟨fun b hb => ?_, ih (by omega)⟩
    obtain ⟨hblen, hbcode, -⟩ := codesOfLength_bounds hl (by omega) hb
    obtain ⟨hlen, -, hcode⟩ := codesOfLength_bounds (code := code) (syms := [sym]) hl
      (by simp only [List.length_singleton]; omega) (List.mem_singleton_self _)
    unfold HuffEntry.spanHi HuffEntry.spanLo
    rw [hlen, hblen]
    exact Nat.mul_le_mul_right _ (Nat.le_trans hcode hbcode)

/-! ## Code assignment -/

/-- Going on to the next length keeps the running code as a fraction (R131); behind length 16 it can only grow. -/
theorem runningCode_le_next (l code : Nat) : code * 2 ^ (16 - l) ≤ 2 * code * 2 ^ (16 - (l + 1)) := by
  have hpow : 2 ^ (16 - l) ≤ 2 * 2 ^ (16 - (l + 1)) := by
    rw [← Nat.pow_succ']; exact Nat.pow_le_pow_right (by decide) (by omega)
  calc code * 2 ^ (16 - l) ≤ code * (2 * 2 ^ (16 - (l + 1))) := Nat.mul_le_mul_left _ hpow
    _ = 2 * code * 2 ^ (16 - (l + 1)) := by ring

/-- What assignment from length `l` on guarantees of every entry: a length from `l` to 16, a code that fits it (R132), and a span
that does not begin before the running code. -/
theorem assignCodes_bounds {l : Nat} {cnts : List Nat} {syms : List Byte} {code : Nat} {es : List HuffEntry}
    (hl : l + cnts.length ≤ 17) (h : assignCodes l cnts syms code = .ok es) :
    ∀ e ∈ es, l ≤ e.len.toNat ∧ e.len.toNat ≤ 16 ∧ e.code.toNat < 2 ^ e.len.toNat ∧ code * 2 ^ (16 - l) ≤ e.spanLo := by
  induction cnts generalizing l syms code es with
  | nil => simp only [assignCodes, Except.ok.injEq] at h; simp [← h]
  | cons cnt cnts ih =>
    rw [List.length_cons] at hl
    obtain ⟨hfit, rest, hrest, rfl⟩ := assignCodes_cons_ok h
    intro e he
    obtain he | he := List.mem_append.mp he
    · have htake := List.length_take_le cnt syms
      obtain ⟨hlen, hlo, hhi⟩ := codesOfLength_bounds (by omega) (by omega) he
      refine ⟨by omega, by omega, by rw [hlen]; omega, ?_⟩
      unfold HuffEntry.spanLo
      rw [hlen]
      exact Nat.mul_le_mul_right _ hlo
    · obtain ⟨hlen, hmax, hcode, hspan⟩ := ih (by omega) hrest e he
      refine ⟨by omega, hmax, hcode, ?_⟩
      calc code * 2 ^ (16 - l) ≤ (code + cnt) * 2 ^ (16 - l) := Nat.mul_le_mul_right _ (Nat.le_add_right _ _)
        _ ≤ 2 * (code + cnt) * 2 ^ (16 - (l + 1)) := runningCode_le_next l (code + cnt)
        _ ≤ e.spanLo := hspan

/-- Assignment lays the spans side by side, rising with the entry index (R133): those of one length end at the running code, where
those of the longer lengths begin. -/
theorem assignCodes_spans {l : Nat} {cnts : List Nat} {syms : List Byte} {code : Nat} {es : List HuffEntry}
    (hl : l + cnts.length ≤ 17) (h : assignCodes l cnts syms code = .ok es) :
    es.Pairwise (fun a b => a.spanHi ≤ b.spanLo) := by
  induction cnts generalizing l syms code es with
  | nil => simp only [assignCodes, Except.ok.injEq] at h; simp [← h]
  | cons cnt cnts ih =>
    rw [List.length_cons] at hl
    obtain ⟨hfit, rest, hrest, rfl⟩ := assignCodes_cons_ok h
    have htake := List.length_take_le cnt syms
    refine List.pairwise_append.mpr ⟨codesOfLength_spans (by omega) (by omega), ih (by omega) hrest, fun a ha b hb => ?_⟩
    obtain ⟨hlen, -, hhi⟩ := codesOfLength_bounds (by omega) (by omega) ha
    obtain ⟨-, -, -, hspan⟩ := assignCodes_bounds (by omega) hrest b hb
    calc a.spanHi = (a.code.toNat + 1) * 2 ^ (16 - l) := by rw [HuffEntry.spanHi, hlen]
      _ ≤ (code + cnt) * 2 ^ (16 - l) := Nat.mul_le_mul_right _ (by omega)
      _ ≤ 2 * (code + cnt) * 2 ^ (16 - (l + 1)) := runningCode_le_next l (code + cnt)
      _ ≤ b.spanLo := hspan

/-! ## A successful build -/

/-- R35, R37: the lengths of a built slot are 1 to 16, and each code fits its length. -/
theorem buildEntries_bounds {id : Byte} {lengths : Vector Half 16} {table : List Byte} {es : List HuffEntry}
    (h : buildEntries id lengths table = .ok es) :
    ∀ e ∈ es, 1 ≤ e.len.toNat ∧ e.len.toNat ≤ 16 ∧ e.code.toNat < 2 ^ e.len.toNat := by
  obtain ⟨-, -, -, hassign⟩ := buildEntries_ok h
  intro e he
  obtain ⟨hmin, hmax, hcode, -⟩ := assignCodes_bounds (by simp) hassign e he
  exact ⟨hmin, hmax, hcode⟩

/-- R36, R133: the spans of a built slot rise with the entry index. -/
theorem buildEntries_spans {id : Byte} {lengths : Vector Half 16} {table : List Byte} {es : List HuffEntry}
    (h : buildEntries id lengths table = .ok es) : es.Pairwise (fun a b => a.spanHi ≤ b.spanLo) := by
  obtain ⟨-, -, -, hassign⟩ := buildEntries_ok h
  exact assignCodes_spans (by simp) hassign

/-- Settles O17: the spans of a build lie side by side, so no code begins with another; and a code begins with
any equal one, so no two are equal. -/
theorem builtCodesArePrefixFree : Obligations.BuiltCodesArePrefixFree := by
  unfold Obligations.BuiltCodesArePrefixFree
  intro id lengths table es h
  have hbounds := buildEntries_bounds h
  have hfree : es.Pairwise (fun a b => ¬ a.prefixes b ∧ ¬ b.prefixes a) :=
    (buildEntries_spans h).imp_of_mem fun {a b} ha hb hspan =>
      have ⟨_, hamax, _⟩ := hbounds a ha
      have ⟨_, hbmax, _⟩ := hbounds b hb
      HuffEntry.not_prefixes_of_spans hamax hbmax hspan
  have hfit : ∀ e ∈ es, e.code.toNat < 2 ^ e.len.toNat := fun e he =>
    have ⟨_, _, hcode⟩ := hbounds e he
    hcode
  exact ⟨hfit, hfree.imp fun ⟨hab, _⟩ heq => hab (HuffEntry.prefixes_of_eq heq), hfree⟩

end Sys2Proof.Machine
end

section
/-! PROOFS. The bits the Packer has accepted (R64, R150 to R153, R165): EMITBYTE adds a data byte, each PUTBITS round one bit at
the end, and FINALIZE the padding 1 bits. -/

namespace Sys2Proof.Machine

open Sys2Proof

/-! ## Bits of values and bytes -/

/-- The first bit of a field is its highest (R64). -/
theorem msbBits_succ (v n : Nat) : msbBits v (n + 1) = v.testBit n :: msbBits v n := by
  simp only [msbBits, List.range_succ_eq_map, List.map_cons, List.map_map]
  congr 1
  exact List.map_congr_left fun i _ => congrArg v.testBit (by simp only [Nat.succ_eq_add_one]; omega)

@[simp] theorem byteBits_length (b : Byte) : (byteBits b).length = 8 := by simp [byteBits, msbBits]

theorem byteBits_getElem (b : Byte) {i : Nat} (h : i < (byteBits b).length) : (byteBits b)[i] = b.getLsbD (7 - i) := by
  simp [byteBits, msbBits, BitVec.getLsbD]

/-- The first bits of a byte, from bit 7 down (R10). -/
theorem byteBits_take (b : Byte) {n : Nat} (h : n ≤ 8) :
    (byteBits b).take n = (List.range n).map (fun i => b.getLsbD (7 - i)) := by
  rw [byteBits, msbBits, ← List.map_take, List.take_range, Nat.min_eq_left h]
  rfl

/-- The bits of a byte from position `n` of the stream on. -/
theorem byteBits_drop (b : Byte) {n : Nat} (h : n < 8) :
    (byteBits b).drop n = b.getLsbD (7 - n) :: (byteBits b).drop (n + 1) := by
  rw [List.drop_eq_getElem_cons (by simpa using h), byteBits_getElem]

/-- R39's condition on `CUR`, bit by bit. -/
theorem mod_two_pow_eq_zero_iff (b : Byte) (k : Nat) :
    b.toNat % 2 ^ k = 0 ↔ ∀ i < k, b.getLsbD i = false := by
  constructor
  · intro h i hi
    have hbit := congrArg (Nat.testBit · i) h
    rwa [Nat.testBit_mod_two_pow, Nat.zero_testBit, decide_eq_true hi, Bool.true_and] at hbit
  · intro h
    refine Nat.eq_of_testBit_eq fun i => ?_
    rw [Nat.testBit_mod_two_pow, Nat.zero_testBit, Bool.and_eq_false_imp]
    intro hi
    exact h i (of_decide_eq_true hi)

/-! ## EMITBYTE -/

theorem Packer.emitByte_eq (b : Byte) (p : Packer) :
    p.emitByte b = { p with obuf := p.obuf ++ (if b = 0xFF then [0xFF, 0x00] else [b]) } := by
  unfold Packer.emitByte
  split
  next hb => rw [hb]
  next => rfl

/-- Settles O21, by the two cases of the stuffing. -/
theorem emitbyteStuffs : Obligations.EmitbyteStuffs := by
  unfold Obligations.EmitbyteStuffs
  intro s b
  show Host.Outcome.next { s with packer := s.packer.emitByte b } = _
  rw [Packer.emitByte_eq]

/-- The stuffed 0x00 is no data byte (R151). -/
theorem Packer.unstuff_emitByte (b : Byte) {p : Packer} (h : stuffed p.obuf = true) :
    unstuff (p.emitByte b).obuf = unstuff p.obuf ++ [b] := by
  rw [Packer.emitByte_obuf, unstuff_append _ h]
  split
  next hb => rw [unstuff, if_pos hb, unstuff]
  next => rfl

/-! ## PUTBITS -/

/-- `CUR` with the next bit put in (R150). -/
def Packer.nextCur (b : Bool) (p : Packer) : Byte := if b then p.cur ||| (1#8 <<< (7 - p.nbits.val)) else p.cur

theorem Packer.putBit_of_full {p : Packer} (b : Bool) (h : p.nbits = 7) :
    p.putBit b = { p.emitByte (p.nextCur b) with cur := 0, nbits := 0 } := if_pos h

theorem Packer.putBit_of_not_full {p : Packer} (b : Bool) (h : p.nbits ≠ 7) :
    p.putBit b = { p with cur := p.nextCur b, nbits := p.nbits + 1 } := if_neg h

theorem Packer.getLsbD_nextCur (b : Bool) (p : Packer) (i : Nat) :
    (p.nextCur b).getLsbD i = (p.cur.getLsbD i || (b && decide (i = 7 - p.nbits.val))) := by
  cases b with
  | false => simp [Packer.nextCur]
  | true =>
    have hone : (1#8 <<< (7 - p.nbits.val)).getLsbD i = decide (i = 7 - p.nbits.val) := by
      rw [← BitVec.twoPow_eq, BitVec.getLsbD_twoPow]
      simp [Nat.lt_succ_iff, eq_comm]
    simp [Packer.nextCur, hone]

/-- The new bit stands behind the bits of `CUR`. -/
theorem Packer.nextCur_bits (b : Bool) {p : Packer} (h : p.wf) :
    (byteBits (p.nextCur b)).take (p.nbits.val + 1) = (byteBits p.cur).take p.nbits.val ++ [b] := by
  have hlow := (mod_two_pow_eq_zero_iff _ _).mp h.1
  rw [byteBits_take _ (by omega), byteBits_take _ (by omega), List.range_succ, List.map_append]
  congr 1
  · refine List.map_congr_left fun i hi => ?_
    have hi' := List.mem_range.mp hi
    have hne : ¬ 7 - i = 7 - p.nbits.val := by omega
    simp [Packer.getLsbD_nextCur, hne]
  · simp [Packer.getLsbD_nextCur, hlow (7 - p.nbits.val) (by omega)]

/-- The bits of `CUR` below the new one stay 0 (R39). -/
theorem Packer.nextCur_low (b : Bool) {p : Packer} (h : p.wf) :
    (p.nextCur b).toNat % 2 ^ (8 - (p.nbits.val + 1)) = 0 := by
  have hlow := (mod_two_pow_eq_zero_iff _ _).mp h.1
  refine (mod_two_pow_eq_zero_iff _ _).mpr fun i hi => ?_
  have hne : ¬ i = 7 - p.nbits.val := by omega
  simp [Packer.getLsbD_nextCur, hne, hlow i (by omega)]

theorem Packer.putBit_wf (b : Bool) {p : Packer} (h : p.wf) : (p.putBit b).wf := by
  refine ⟨?_, Packer.putBit_stuffed b h.2⟩
  by_cases hfull : p.nbits = 7
  · rw [Packer.putBit_of_full b hfull]; rfl
  · have hval : (p.nbits + 1).val = p.nbits.val + 1 := by omega
    rw [Packer.putBit_of_not_full b hfull]
    simp only [hval, Packer.nextCur_low b h]

/-- One PUTBITS round accepts its bit (R150). -/
theorem Packer.putBit_bits (b : Bool) {p : Packer} (h : p.wf) : (p.putBit b).bits = p.bits ++ [b] := by
  have hcur := Packer.nextCur_bits b h
  by_cases hfull : p.nbits = 7
  · have hbyte : byteBits (p.nextCur b) = (byteBits p.cur).take p.nbits.val ++ [b] := by
      rw [← hcur, List.take_of_length_le (by simp [hfull])]
    rw [Packer.putBit_of_full b hfull]
    simp [Packer.bits, Packer.unstuff_emitByte _ h.2, hbyte]
  · have hval : (p.nbits + 1).val = p.nbits.val + 1 := by omega
    rw [Packer.putBit_of_not_full b hfull]
    simp only [Packer.bits, hval, hcur, List.append_assoc]

theorem Packer.putBits_wf (v n : Nat) {p : Packer} (h : p.wf) : (p.putBits v n).wf := by
  induction n generalizing p with
  | zero => exact h
  | succ n ih => exact ih (Packer.putBit_wf _ h)

/-- PUTBITS accepts the low bits of its value, most significant first (R64, R150). -/
theorem Packer.putBits_bits (v n : Nat) {p : Packer} (h : p.wf) : (p.putBits v n).bits = p.bits ++ msbBits v n := by
  induction n generalizing p with
  | zero => exact (List.append_nil _).symm
  | succ n ih =>
    rw [Packer.putBits_succ, ih (Packer.putBit_wf _ h), Packer.putBit_bits _ h, msbBits_succ, List.append_assoc,
      List.singleton_append]

theorem putAll_wf (vs : List (Nat × Nat)) {p : Packer} (h : p.wf) : (putAll vs p).wf := by
  induction vs generalizing p with
  | nil => exact h
  | cons x vs ih => exact ih (Packer.putBits_wf _ _ h)

/-- A run of PUTBITS calls accepts the bits of each call in turn (R163). -/
theorem putAll_bits (vs : List (Nat × Nat)) {p : Packer} (h : p.wf) : (putAll vs p).bits = p.bits ++ putAllBits vs := by
  induction vs generalizing p with
  | nil => exact (List.append_nil _).symm
  | cons x vs ih =>
    calc (putAll vs (p.putBits x.1 x.2)).bits
        = (p.putBits x.1 x.2).bits ++ putAllBits vs := ih (Packer.putBits_wf _ _ h)
      _ = p.bits ++ putAllBits (x :: vs) := by simp [Packer.putBits_bits _ _ h, putAllBits]

/-- The Packer starts with no bit (R154). -/
theorem Packer.reset_wf : Packer.reset.wf := ⟨rfl, rfl⟩

@[simp] theorem Packer.reset_bits : Packer.reset.bits = [] := rfl

/-- `NBITS` counts the accepted bits modulo 8 (R165). -/
theorem Packer.bits_length_mod (p : Packer) : p.bits.length % 8 = p.nbits.val := by
  simp only [Packer.bits, List.length_append, List.length_flatMap, byteBits_length, List.map_const', List.sum_replicate,
    List.length_take, smul_eq_mul]
  omega

/-! ## FINALIZE -/

theorem getLsbD_padMask (k : Nat) {i : Nat} (h : i < 8) : (BitVec.ofNat 8 (2 ^ k - 1)).getLsbD i = decide (i < k) := by
  rw [BitVec.getLsbD_ofNat, Nat.testBit_two_pow_sub_one, decide_eq_true h, Bool.true_and]

/-- The padded byte: the bits of `CUR`, then 1 bits (R152). -/
theorem byteBits_pad (c : Byte) {n : Nat} (h : n ≤ 8) :
    byteBits (c ||| BitVec.ofNat 8 (2 ^ (8 - n) - 1)) = (byteBits c).take n ++ List.replicate (8 - n) true := by
  refine List.ext_getElem (by simp; omega) fun i hi _ => ?_
  rw [byteBits_length] at hi
  rw [byteBits_getElem, BitVec.getLsbD_or, getLsbD_padMask _ (by omega)]
  by_cases hin : i < n
  · rw [List.getElem_append_left (by simp; omega), List.getElem_take, byteBits_getElem]
    have hhigh : ¬ 7 - i < 8 - n := by omega
    simp [hhigh]
  · rw [List.getElem_append_right (by simp; omega), List.getElem_replicate]
    have hlow : 7 - i < 8 - n := by omega
    simp [hlow]

theorem Packer.finalize_of_aligned {p : Packer} (h : p.nbits = 0) : p.finalize = p := if_pos h

theorem Packer.finalize_of_partial {p : Packer} (h : p.nbits ≠ 0) :
    p.finalize = { p.emitByte (p.cur ||| BitVec.ofNat 8 (2 ^ (8 - p.nbits.val) - 1)) with cur := 0, nbits := 0 } := if_neg h

/-- FINALIZE ends on a byte boundary (R152). -/
@[simp] theorem Packer.finalize_nbits (p : Packer) : p.finalize.nbits = 0 := by
  by_cases h : p.nbits = 0
  · rw [Packer.finalize_of_aligned h, h]
  · rw [Packer.finalize_of_partial h]

/-- FINALIZE adds the 1 bits up to the byte boundary (R152, R153). -/
theorem Packer.finalize_bits {p : Packer} (h : stuffed p.obuf = true) :
    p.finalize.bits = p.bits ++ List.replicate ((8 - p.nbits.val) % 8) true := by
  by_cases hn : p.nbits = 0
  · rw [Packer.finalize_of_aligned hn]
    simp [hn]
  · have hpad : (8 - p.nbits.val) % 8 = 8 - p.nbits.val := by omega
    rw [Packer.finalize_of_partial hn]
    simp [Packer.bits, Packer.unstuff_emitByte _ h, byteBits_pad p.cur p.nbits.isLt.le, hpad]

/-- A finalized Packer holds its bits in `OBUF` alone. -/
theorem Packer.finalize_obuf_bits (p : Packer) : (unstuff p.finalize.obuf).flatMap byteBits = p.finalize.bits := by
  simp [Packer.bits]

end Sys2Proof.Machine
end

section
/-! PROOFS. The Unpacker on a stuffed buffer (R156 to R158): it delivers the bits of the data bytes, then meets the end of data.
With the bits of the Packer this gives the mirror property (R163). -/

namespace Sys2Proof.Machine

open Sys2Proof

/-! ## GETBIT -/

theorem memRead_of_getElem? {buf : List Byte} {i : Nat} {b : Byte} (h : buf[i]? = some b) : memRead buf i = b := by
  simp [memRead, h]

/-- A byte that is data at the cursor delivers its next bit (R156, R158). -/
theorem Unpacker.getBit_of_data {u : Unpacker} {b : Byte} (hseg : u.eoseg = false) (hb : u.ibuf[u.ipos]? = some b)
    (hstuff : b = 0xFF → u.ibit = 0 → u.ibuf[u.ipos + 1]? = some 0) : u.getBit = u.deliver b := by
  have hpos : ¬ u.ibuf.length ≤ u.ipos := Nat.not_le.mpr (List.getElem?_eq_some_iff.mp hb).1
  simp only [Unpacker.getBit, hseg, Bool.false_eq_true, if_false, hpos, memRead_of_getElem? hb]
  by_cases hstart : u.ibit = 0 ∧ b = 0xFF
  · obtain ⟨hbit, hff⟩ := hstart
    have hzero := hstuff hff hbit
    have hpos' : ¬ u.ibuf.length ≤ u.ipos + 1 := Nat.not_le.mpr (List.getElem?_eq_some_iff.mp hzero).1
    simp [hbit, hff, hpos', memRead_of_getElem? hzero]
  · rw [if_neg hstart]

/-- Past the last byte GETBIT fails with end of data (R157). -/
theorem Unpacker.getBit_of_exhausted {u : Unpacker} (hseg : u.eoseg = false) (hpos : u.ibuf.length ≤ u.ipos) :
    u.getBit = .fail false { u with eoseg := true } := by
  simp [Unpacker.getBit, hseg, hpos]

/-- A GETBIT that succeeds has come to the delivery of a byte (R156). -/
theorem Unpacker.deliver_of_getBit {u u' : Unpacker} {b : Bool} (h : u.getBit = .bit b u') :
    ∃ c, u.deliver c = .bit b u' := by
  unfold Unpacker.getBit at h
  dsimp only at h
  split at h
  · cases h
  · split at h
    · cases h
    · split at h
      · split at h
        · cases h
        · split at h
          · cases h
          · exact ⟨_, h⟩
      · exact ⟨_, h⟩

/-- A successful GETBIT leaves `MARKER` (R156). -/
theorem Unpacker.getBit_marker {u u' : Unpacker} {b : Bool} (h : u.getBit = .bit b u') : u'.marker = u.marker := by
  obtain ⟨c, hc⟩ := Unpacker.deliver_of_getBit h
  obtain ⟨-, rfl⟩ := BitRead.bit.inj hc
  split <;> rfl

/-! ## Reads of several bits -/

/-- The first of several reads. -/
theorem Unpacker.reads_cons {b : Bool} {u u' : Unpacker} (bs : List Bool) (h : u.getBit = .bit b u') :
    Unpacker.reads (b :: bs) u = Unpacker.reads bs u' := by
  simp [Unpacker.reads, h]

theorem Unpacker.reads_cons_some {b : Bool} {bs : List Bool} {u w : Unpacker}
    (h : Unpacker.reads (b :: bs) u = some w) : ∃ u', u.getBit = .bit b u' ∧ Unpacker.reads bs u' = some w := by
  cases hg : u.getBit with
  | fail marker u' => simp [Unpacker.reads, hg] at h
  | bit b' u' =>
    by_cases hb : b' = b
    · subst hb; exact ⟨u', rfl, Unpacker.reads_cons bs hg ▸ h⟩
    · simp [Unpacker.reads, hg, hb] at h

/-- Reads of two parts pass through the Unpacker between them. -/
theorem Unpacker.reads_append (as bs : List Bool) (u : Unpacker) :
    Unpacker.reads (as ++ bs) u = (Unpacker.reads as u).bind (Unpacker.reads bs) := by
  induction as generalizing u with
  | nil => rfl
  | cons a as ih =>
    cases hg : u.getBit with
    | fail marker u' => simp [Unpacker.reads, hg]
    | bit b u' =>
      by_cases hb : b = a
      · simp [Unpacker.reads, hg, hb, ih]
      · simp [Unpacker.reads, hg, hb]

/-- Reads that succeed leave `MARKER` (R163). -/
theorem Unpacker.reads_marker {bs : List Bool} {u w : Unpacker} (h : Unpacker.reads bs u = some w) :
    w.marker = u.marker := by
  induction bs generalizing u with
  | nil => cases h; rfl
  | cons b bs ih =>
    obtain ⟨u', hg, hrest⟩ := Unpacker.reads_cons_some h
    rw [ih hrest, Unpacker.getBit_marker hg]

/-! ## Reading a stuffed buffer -/

/-- Reading the next bit of the data byte at the cursor leaves its later bits to read. -/
theorem Unpacker.reads_drop {b : Byte} {u u' : Unpacker} (h : u.getBit = .bit (b.getLsbD (7 - u.ibit.val)) u') :
    Unpacker.reads ((byteBits b).drop u.ibit.val) u = Unpacker.reads ((byteBits b).drop (u.ibit.val + 1)) u' := by
  rw [byteBits_drop b u.ibit.isLt, Unpacker.reads_cons _ h]

/-- From a cursor inside a data byte the reads deliver the rest of it and step over it, past a stuffed 0x00 too (R158). -/
theorem Unpacker.reads_rest_of_byte {b : Byte} (k : Nat) {u : Unpacker} (hk : u.ibit.val + (k + 1) = 8)
    (hseg : u.eoseg = false) (hb : u.ibuf[u.ipos]? = some b)
    (hstuff : b = 0xFF → u.ibit = 0 → u.ibuf[u.ipos + 1]? = some 0) :
    Unpacker.reads ((byteBits b).drop u.ibit.val) u
      = some { u with ibit := 0, ipos := u.ipos + (if b = 0xFF then 2 else 1) } := by
  induction k generalizing u with
  | zero =>
    have hlast : u.ibit = 7 := by omega
    have hget := Unpacker.getBit_of_data hseg hb hstuff
    rw [Unpacker.deliver, if_pos hlast] at hget
    rw [Unpacker.reads_drop hget, List.drop_of_length_le (by simp [hlast]), Unpacker.reads]
  | succ k ih =>
    have hmid : u.ibit ≠ 7 := by omega
    have hval : (u.ibit + 1).val = u.ibit.val + 1 := by omega
    have hne : u.ibit + 1 ≠ 0 := by omega
    have hget := Unpacker.getBit_of_data hseg hb hstuff
    rw [Unpacker.deliver, if_neg hmid] at hget
    rw [Unpacker.reads_drop hget, ← hval]
    exact ih (u := { u with ibit := u.ibit + 1 }) (by simp only [hval]; omega) hseg hb fun _ h => absurd h hne

/-- A whole data byte is read bit by bit (R156, R158). -/
theorem Unpacker.reads_byte {b : Byte} {u : Unpacker} (hbit : u.ibit = 0) (hseg : u.eoseg = false)
    (hb : u.ibuf[u.ipos]? = some b) (hstuff : b = 0xFF → u.ibuf[u.ipos + 1]? = some 0) :
    Unpacker.reads (byteBits b) u = some { u with ipos := u.ipos + (if b = 0xFF then 2 else 1) } := by
  have h := Unpacker.reads_rest_of_byte 7 (by simp [hbit]) hseg hb fun hff _ => hstuff hff
  have hdrop : (byteBits b).drop u.ibit.val = byteBits b := by rw [hbit]; rfl
  rwa [hdrop, ← hbit] at h

/-- The bytes left behind the cursor, seen from the buffer. -/
theorem Unpacker.ibuf_getElem?_of_drop {u : Unpacker} {l : List Byte} (h : u.ibuf.drop u.ipos = l) (i : Nat) :
    u.ibuf[u.ipos + i]? = l[i]? := by rw [← h, List.getElem?_drop]

/-- R163: from a byte boundary every bit of the data bytes of a stuffed rest is delivered, and the rest is passed whole. -/
theorem Unpacker.reads_stuffed (l : List Byte) {u : Unpacker} (hl : u.ibuf.drop u.ipos = l) (hst : stuffed l = true)
    (hbit : u.ibit = 0) (hseg : u.eoseg = false) :
    Unpacker.reads ((unstuff l).flatMap byteBits) u = some { u with ipos := u.ipos + l.length } := by
  induction l using unstuff.induct generalizing u with
  | case1 => rfl
  | case2 b =>
    have hff : b ≠ 0xFF := by simpa [stuffed] using hst
    have hread := Unpacker.reads_byte hbit hseg (Unpacker.ibuf_getElem?_of_drop hl 0) fun h => absurd h hff
    rw [if_neg hff] at hread
    rw [unstuff, List.flatMap_singleton, hread, List.length_singleton]
  | case3 c rest ih =>
    rw [stuffed, if_pos rfl, Bool.and_eq_true, beq_iff_eq] at hst
    obtain ⟨hzero, hrest⟩ := hst
    have hread := Unpacker.reads_byte hbit hseg (Unpacker.ibuf_getElem?_of_drop hl 0) fun _ =>
      hzero ▸ Unpacker.ibuf_getElem?_of_drop hl 1
    rw [if_pos rfl] at hread
    have hdrop : u.ibuf.drop (u.ipos + 2) = rest := by rw [← List.drop_drop, hl]; rfl
    rw [unstuff, if_pos rfl, List.flatMap_cons, Unpacker.reads_append, hread, Option.bind_some,
      ih (u := { u with ipos := u.ipos + 2 }) hdrop hrest hbit hseg]
    have hlen : u.ipos + 2 + rest.length = u.ipos + (rest.length + 1 + 1) := by omega
    simp only [List.length_cons, hlen]
  | case4 b c rest hff ih =>
    rw [stuffed, if_neg hff] at hst
    have hread := Unpacker.reads_byte hbit hseg (Unpacker.ibuf_getElem?_of_drop hl 0) fun h => absurd h hff
    rw [if_neg hff] at hread
    have hdrop : u.ibuf.drop (u.ipos + 1) = c :: rest := by rw [← List.drop_drop, hl]; rfl
    rw [unstuff, if_neg hff, List.flatMap_cons, Unpacker.reads_append, hread, Option.bind_some,
      ih (u := { u with ipos := u.ipos + 1 }) hdrop hst hbit hseg]
    simp only [List.length_cons, Nat.add_assoc, Nat.add_comm]

/-- A restarted Unpacker delivers every bit of the data bytes loaded into it, and ends behind the last byte (R162, R163). -/
theorem Unpacker.reads_loaded {l : List Byte} (hst : stuffed l = true) :
    Unpacker.reads ((unstuff l).flatMap byteBits) { Unpacker.reset with ibuf := l }
      = some { Unpacker.reset with ibuf := l, ipos := l.length } := by
  have h := Unpacker.reads_stuffed l (u := { Unpacker.reset with ibuf := l }) rfl hst rfl rfl
  rwa [show (Unpacker.reset.ipos + l.length) = l.length from Nat.zero_add _] at h

/-! ## The mirror property -/

/-- The bits of a finalized run of PUTBITS calls after PRESTART (R163). -/
theorem finalize_putAll_bits (vs : List (Nat × Nat)) :
    (putAll vs Packer.reset).finalize.bits
      = putAllBits vs ++ List.replicate ((8 - (putAllBits vs).length % 8) % 8) true := by
  have hbits : (putAll vs Packer.reset).bits = putAllBits vs := by
    rw [putAll_bits vs Packer.reset_wf, Packer.reset_bits, List.nil_append]
  rw [Packer.finalize_bits (putAll_wf vs Packer.reset_wf).2, ← Packer.bits_length_mod, hbits]

/-- Settles O24: the finalized `OBUF` is stuffed and its data bytes hold the accepted bits and the padding, so the Unpacker
delivers both and then stands at the end of `IBUF`. -/
theorem unpackerMirrorsPacker : Obligations.UnpackerMirrorsPacker := by
  unfold Obligations.UnpackerMirrorsPacker
  intro vs
  have hst : stuffed (putAll vs Packer.reset).finalize.obuf = true :=
    Packer.finalize_stuffed (putAll_wf vs Packer.reset_wf).2
  have hall := Unpacker.reads_loaded hst
  rw [Packer.finalize_obuf_bits, finalize_putAll_bits, Unpacker.reads_append] at hall
  obtain ⟨u, hdata, hpad⟩ := Option.bind_eq_some_iff.mp hall
  exact ⟨u, _, hdata, Unpacker.reads_marker hdata, hpad, rfl, Unpacker.getBit_of_exhausted rfl le_rfl⟩

end Sys2Proof.Machine
end

section
/-! PROOFS. The rounding of the quantizer (R12, R213, R216): one sign suffices, since `rhaz` is odd; at a non-negative
argument it is the quotient `(2*n + q) / (2*q)` of naturals. -/

namespace Sys2Proof.Machine

open Sys2Proof

/-- Rounding is odd (R213). -/
theorem rhaz_neg (c : Int) (q : Nat) : rhaz (-c) q = -rhaz c q := by
  unfold rhaz
  rw [Int.sign_neg, Int.natAbs_neg, Int.neg_mul]

/-- The sign of `rhaz` is lost at 0 only, where the quotient is 0 as well (R12). -/
theorem rhaz_natCast (n : Nat) {q : Nat} (hq : 0 < q) : rhaz n q = ((2 * n + q) / (2 * q) : Nat) := by
  unfold rhaz
  rw [Int.natAbs_natCast]
  obtain rfl | hn := Nat.eq_zero_or_pos n
  · have hquot : (2 * 0 + q) / (2 * q) = 0 := Nat.div_eq_of_lt (by omega)
    rw [hquot, Nat.cast_zero, Int.mul_zero]
  · rw [Int.sign_natCast_of_ne_zero hn.ne', Int.one_mul]

/-- The rounded quotient is off by at most half of the divisor, and by less upwards than downwards: a tie goes up (R213). -/
theorem rhaz_natCast_mul_bounds (n : Nat) {q : Nat} (hq : 0 < q) :
    ∃ p : Nat, rhaz n q * q = p ∧ 2 * p ≤ 2 * n + q ∧ 2 * n < 2 * p + q := by
  refine ⟨(2 * n + q) / (2 * q) * q, by rw [rhaz_natCast n hq, Nat.cast_mul], ?_⟩
  have hle : (2 * n + q) / (2 * q) * (2 * q) ≤ 2 * n + q := Nat.div_mul_le_self _ _
  have hlt : 2 * n + q < (2 * n + q) / (2 * q) * (2 * q) + 2 * q := Nat.lt_div_mul_add (by omega)
  rw [Nat.mul_left_comm] at hle hlt
  omega

/-- Rounding takes a multiple of the divisor back to its factor, for a factor of at least 0 (R216). -/
theorem rhaz_natCast_mul_self (n : Nat) {q : Nat} (hq : 0 < q) : rhaz ((n : Int) * q) q = n := by
  rw [← Nat.cast_mul, rhaz_natCast (n * q) hq, Nat.mul_left_comm, Nat.mul_comm n,
    Nat.mul_add_div (by omega), Nat.div_eq_of_lt (by omega), Nat.add_zero]

/-- Rounding takes a multiple of the divisor back to its factor (R216). -/
theorem rhaz_mul_self (c : Int) {q : Nat} (hq : 0 < q) : rhaz (c * q) q = c := by
  obtain ⟨n, rfl | rfl⟩ := c.eq_nat_or_neg
  · exact rhaz_natCast_mul_self n hq
  · rw [Int.neg_mul, rhaz_neg, rhaz_natCast_mul_self n hq]

/-- `rhaz` is a nearest integer to `c/q`, and on a tie the one farther from zero (R213). -/
theorem rhaz_nearest (c : Int) {q : Nat} (hq : 0 < q) :
    2 * (c - rhaz c q * q).natAbs ≤ q ∧
      (2 * (c - rhaz c q * q).natAbs = q → c.natAbs < (rhaz c q * q).natAbs) := by
  obtain ⟨n, rfl | rfl⟩ := c.eq_nat_or_neg <;> obtain ⟨p, hp, hle, hlt⟩ := rhaz_natCast_mul_bounds n hq
  · rw [hp]
    omega
  · rw [rhaz_neg, Int.neg_mul, hp]
    omega

/-- Settles O45: nearest and away from zero on a tie by the bounds of the quotient at both signs, odd, exact on multiples. -/
theorem rhazRoundsHalfAwayFromZero : Obligations.RhazRoundsHalfAwayFromZero := by
  unfold Obligations.RhazRoundsHalfAwayFromZero
  intro c q hq
  obtain ⟨hnear, htie⟩ := rhaz_nearest c hq
  exact ⟨hnear, htie, rhaz_neg c q, rhaz_mul_self c hq⟩

end Sys2Proof.Machine
end

section
/-! PROOFS. HEADER, COMPONENT and EOS where they are accepted (R222 to R225, R232), and the two completions (R230, R231). -/

namespace Sys2Proof.Machine

open Sys2Proof

/-! ## Acceptance -/

/-- The rows HEADER and EOS of the acceptance table (R222): accepted wherever the controller still takes messages. -/
theorem State.verdict_of_live {s : State} {k : MsgKind} (hk : k = .header ∨ k = .eos)
    (hs : s.scState = .idle ∨ s.scState = .scanActive) : s.verdict k = .accept := by
  rw [State.verdict]
  obtain hs | hs := hs <;> rw [hs] <;> obtain rfl | rfl := hk <;> rfl

/-- The row COMPONENT of the acceptance table (R222): accepted in an open scan before its first MCU. -/
theorem State.verdict_component {s : State} (hs : s.scState = .scanActive) (hc : s.count = 0) :
    s.verdict .component = .accept := by
  rw [State.verdict, hs, hc]
  rfl

/-! ## HEADER -/

theorem exec_header_of_live {s : State} (h w : Half) (file frame : List Byte) (p ss se sa : Byte)
    (hs : s.scState = .idle ∨ s.scState = .scanActive) :
    exec (.header h w file frame p ss se sa) s = .next (s.header h w file frame p ss se sa) :=
  congrArg Host.Outcome.next (State.onMessage_of_accept _ (State.verdict_of_live (.inl rfl) hs))

/-- A dimension has at most 2^13 blocks (R26). -/
theorem cdiv8_half_le (h : Half) : cdiv8 h.toNat ≤ 2 ^ 13 := by
  have hlt := h.isLt
  unfold cdiv8
  omega

/-- A scan has at most 2^26 MCUs, so `EXPECTED` does not wrap (R26). -/
theorem cdiv8_mul_cdiv8_le (h w : Half) : cdiv8 h.toNat * cdiv8 w.toNat ≤ 2 ^ 26 :=
  calc cdiv8 h.toNat * cdiv8 w.toNat
    _ ≤ 2 ^ 13 * 2 ^ 13 := Nat.mul_le_mul (cdiv8_half_le h) (cdiv8_half_le w)
    _ = 2 ^ 26 := (pow_add 2 13 13).symm

/-- The registers HEADER writes, in one update (R224). -/
theorem State.openScan_eq (s : State) (h w : Half) (file frame : List Byte) (p ss se sa : Byte) :
    s.openScan h w file frame p ss se sa = { s with
      scState := .scanActive
      status := if s.scState = .scanActive then s.status ||| flagAbn else s.status
      hdr := { valid := true, height := h, width := w, filename := file, frameType := frame, precision := p,
               ss := ss, se := se, sa := sa }
      pred := #v[0, 0, 0]
      expected := BitVec.ofNat 32 (cdiv8 h.toNat * cdiv8 w.toNat)
      count := 0
      ncomp := 0
      corrupt := #v[false, false, false]
      packer := Packer.reset
      unp := Unpacker.reset } := by
  unfold State.openScan
  by_cases hs : s.scState = .scanActive
  · simp only [if_pos hs]
    rfl
  · simp only [if_neg hs]
    rfl

/-- Settles O12: an accepted HEADER without a zero dimension opens the scan, and each dimension has at most 2^13 blocks. -/
theorem headerOpensScan : Obligations.HeaderOpensScan := by
  unfold Obligations.HeaderOpensScan
  intro s h w file frame p ss se sa hs hh hw
  refine ⟨?_, cdiv8_mul_cdiv8_le h w⟩
  have hnonzero : ¬ (h = 0 ∨ w = 0) := not_or.mpr ⟨hh, hw⟩
  rw [exec_header_of_live h w file frame p ss se sa hs, State.header, if_neg hnonzero, State.openScan_eq]
  rfl

/-- Settles O13: an accepted HEADER with a zero dimension raises a fatal error. -/
theorem headerZeroDimensionIsRefused : Obligations.HeaderZeroDimensionIsRefused := by
  unfold Obligations.HeaderZeroDimensionIsRefused
  intro s h w file frame p ss se sa hs hzero
  rw [exec_header_of_live h w file frame p ss se sa hs, State.header, if_pos hzero, s.raise_fatal 0 rfl]

/-! ## COMPONENT -/

theorem exec_component_of_accept {s : State} (id hs vs tq ta td : Byte) (hopen : s.scState = .scanActive)
    (hc : s.count = 0) : exec (.component id hs vs tq ta td) s = .next (s.component id hs vs tq ta td) :=
  congrArg Host.Outcome.next (State.onMessage_of_accept _ (State.verdict_component hopen hc))

/-- Settles O14, by whether a slot is left. -/
theorem componentFillsTheNextSlot : Obligations.ComponentFillsTheNextSlot := by
  unfold Obligations.ComponentFillsTheNextSlot
  intro s id hs vs tq ta td hopen hc
  rw [exec_component_of_accept id hs vs tq ta td hopen hc, State.component]
  constructor
  · intro hleft
    rw [dif_pos hleft]
  · intro hfull
    have hnone : ¬ s.ncomp.val < 3 := by rw [hfull]; decide
    rw [dif_neg hnone, s.raise_fatal id rfl]

/-! ## Completion -/

/-- The bytes FINALIZE leaves (R152): the partial byte padded with 1 bits and stuffed. -/
theorem Packer.finalize_obuf (p : Packer) :
    p.finalize.obuf =
      (let b := p.cur ||| BitVec.ofNat 8 (2 ^ (8 - p.nbits.val) - 1)
       if p.nbits = 0 then p.obuf else if b = 0xFF then p.obuf ++ [0xFF, 0x00] else p.obuf ++ [b]) := by
  dsimp only
  by_cases hn : p.nbits = 0
  · rw [Packer.finalize_of_aligned hn, if_pos hn]
  · rw [Packer.finalize_of_partial hn, if_neg hn, Packer.emitByte_eq, ← apply_ite (p.obuf ++ ·)]

/-- COMPLETE_ENC in one update: it hands off the finalized bytes (R230). -/
theorem State.completeEnc_eq (s : State) :
    s.completeEnc = { s with
      scState := .idle
      packer := Packer.reset
      out := s.out ++ [.scanbuf s.packer.finalize.obuf s.hdr.height s.hdr.width s.hdr.filename s.hdr.frameType
        s.hdr.precision s.hdr.ss s.hdr.se s.hdr.sa] } := rfl

theorem exec_completeEnc (s : State) : exec .completeEnc s = .next s.completeEnc := rfl

/-- Settles O50: COMPLETE_ENC hands off what FINALIZE leaves in `OBUF`. -/
theorem completeEncHandsOff : Obligations.CompleteEncHandsOff := by
  unfold Obligations.CompleteEncHandsOff
  intro s
  rw [exec_completeEnc, State.completeEnc_eq, Packer.finalize_obuf, Packer.reset]

theorem exec_completeDec (s : State) : exec .completeDec s = .next s.completeDec := rfl

/-- Settles O51: COMPLETE_DEC is the event and the new controller state. -/
theorem completeDecSignals : Obligations.CompleteDecSignals := by
  unfold Obligations.CompleteDecSignals
  intro s
  rw [exec_completeDec, State.completeDec, State.emit]

/-! ## EOS -/

theorem exec_eos_of_live {s : State} (hs : s.scState = .idle ∨ s.scState = .scanActive) :
    exec .eos s = .next s.endOfStream :=
  congrArg Host.Outcome.next (State.onMessage_of_accept _ (State.verdict_of_live (.inr rfl) hs))

/-- EOS outside a scan only closes the stream (R232). -/
theorem State.endOfStream_of_closed {s : State} (hs : s.scState ≠ .scanActive) :
    s.endOfStream = { s with scState := .exited, out := s.out ++ [.eos] } := by
  simp only [State.endOfStream, if_neg hs, State.emit]

/-- EOS in an open scan abandons it before it closes the stream (R232, R235). -/
theorem State.endOfStream_of_open {s : State} (hs : s.scState = .scanActive) :
    s.endOfStream = { s with
      scState := .exited
      status := s.status ||| flagAbn
      packer := Packer.reset
      unp := Unpacker.reset
      out := s.out ++ [.eos] } := by
  simp only [State.endOfStream, if_pos hs]
  rfl

/-- Settles O52: EOS is accepted in both states, and only an open scan is abandoned. -/
theorem eosClosesTheStream : Obligations.EosClosesTheStream := by
  unfold Obligations.EosClosesTheStream
  intro s
  constructor
  · intro hidle
    have hclosed : s.scState ≠ .scanActive := by rw [hidle]; decide
    rw [exec_eos_of_live (.inl hidle), State.endOfStream_of_closed hclosed]
  · intro hopen
    rw [exec_eos_of_live (.inr hopen), State.endOfStream_of_open hopen]
    rfl

end Sys2Proof.Machine
end

section
/-! PROOFS. Raising an error, by class (R260, R270 to R272). -/

namespace Sys2Proof.Machine

open Sys2Proof

/-- The kinds of the fatal class (R260). -/
theorem ErrKind.fatal_of_kind {k : ErrKind} (h : k = .malformedTable ∨ k = .protocol) : k.fatal = true := by
  obtain rfl | rfl := h
  · rfl
  · rfl

/-- The entry of a recoverable error of a channel, which is all it does (R270, R271). -/
theorem State.raise_recoverable (s : State) {c : Cause} (ch : Chan) (aux : Byte)
    (h : c.kind = .encode ∨ c.kind = .decode) : s.raise c (some ch) aux = s.afterBlockError c ch aux := by
  unfold State.raise State.afterBlockError
  obtain henc | hdec := h
  · rw [henc]
    rfl
  · rw [hdec]
    rfl

/-- Settles O9, by the class of the cause. -/
theorem errorEntryByClass : Obligations.ErrorEntryByClass := by
  unfold Obligations.ErrorEntryByClass
  intro c aux s
  constructor
  · intro hrecoverable ch
    exact s.raise_recoverable ch aux hrecoverable
  · intro hfatal
    exact s.raise_fatal aux (ErrKind.fatal_of_kind hfatal)

end Sys2Proof.Machine
end

section
/-! PROOFS. Records as bytes (R92 to R99, log entry 1). Each field reader is the inverse of its writer: it answers a value and a
rest exactly when the bytes are the value's image and the rest. So a record decodes to a message exactly when it is the image of
that message and the message is well formed. -/

namespace Sys2Proof

/-! ## Fields -/

theorem half_split (hi lo : Byte) : putHalf (hi ++ lo) = [hi, lo] :=
  congrArg₂ (fun a b => [a, b]) BitVec.extractLsb'_append_eq_left BitVec.extractLsb'_append_eq_right

theorem half_join (h : Half) : h.extractLsb' 8 8 ++ h.extractLsb' 0 8 = h :=
  BitVec.extractLsb'_append_extractLsb' (w := 8) (len := 8)

theorem takeByte_eq_some_iff {bs rest : List Byte} {b : Byte} : takeByte bs = some (b, rest) ↔ bs = b :: rest := by
  cases bs <;> simp [takeByte]

theorem takeHalf_eq_some_iff {bs rest : List Byte} {h : Half} : takeHalf bs = some (h, rest) ↔ bs = putHalf h ++ rest := by
  constructor
  · intro ht
    match bs with
    | [] | [_] => simp [takeHalf] at ht
    | hi :: lo :: tail =>
      obtain ⟨rfl, rfl⟩ : hi ++ lo = h ∧ tail = rest := by simpa [takeHalf] using ht
      rw [half_split]; rfl
  · rintro rfl
    simp only [putHalf, List.cons_append, takeHalf, half_join, List.nil_append]

theorem takeHalves_eq_some_iff {n : Nat} {bs rest : List Byte} {hs : List Half} :
    takeHalves n bs = some (hs, rest) ↔ hs.length = n ∧ bs = putHalves hs ++ rest := by
  induction n generalizing bs hs with
  | zero => cases hs <;> simp [takeHalves, putHalves, eq_comm]
  | succ n ih =>
    cases hs with
    | nil => simp only [takeHalves]; grind
    | cons h hs =>
      have hstep : takeHalves (n + 1) bs = some (h :: hs, rest) ↔
          ∃ mid, takeHalf bs = some (h, mid) ∧ takeHalves n mid = some (hs, rest) := by
        simp only [takeHalves]; grind
      simp [hstep, takeHalf_eq_some_iff, ih, putHalves]
      grind

theorem takeVector_eq_some_iff {n : Nat} {bs rest : List Byte} {v : Vector Half n} :
    takeVector n bs = some (v, rest) ↔ bs = putHalves v.toList ++ rest := by
  have hcomplete : bs = putHalves v.toList ++ rest ↔ takeHalves n bs = some (v.toList, rest) := by
    simp [takeHalves_eq_some_iff]
  rw [hcomplete, takeVector]
  cases ht : takeHalves n bs with
  | none => simp
  | some p =>
    obtain ⟨hs, mid⟩ := p
    obtain ⟨hlen, -⟩ := takeHalves_eq_some_iff.mp ht
    simp [hlen, ← Vector.toList_inj]

theorem takeByteVector_eq_some_iff {n : Nat} {bs rest : List Byte} {v : Vector Byte n} :
    takeByteVector n bs = some (v, rest) ↔ bs = v.toList ++ rest := by
  rw [takeByteVector]
  constructor
  · intro ht
    split at ht
    next hle =>
      obtain ⟨rfl, rfl⟩ := Prod.mk.inj (Option.some.inj ht)
      simp
    next => cases ht
  · rintro rfl
    simp [← Vector.toList_inj]

theorem takeString_putString (str rest : List Byte) : takeString (putString str ++ rest) = some (str, rest) := by
  induction str with
  | nil => cases rest <;> simp [putString, takeString]
  | cons b str ih => simp [putString, takeString, ih]

theorem eq_putString_of_takeString {bs rest str : List Byte} (h : takeString bs = some (str, rest)) :
    bs = putString str ++ rest := by
  induction bs using takeString.induct generalizing str rest with
  | case1 => cases h
  | case2 =>
    obtain ⟨rfl, rfl⟩ : [] = str ∧ [] = rest := by simpa [takeString] using h
    rfl
  | case3 f hf => rw [takeString, if_neg hf] at h; cases h
  | case4 b tail =>
    obtain ⟨rfl, rfl⟩ : [] = str ∧ b :: tail = rest := by simpa [takeString] using h
    rfl
  | case5 b tail hnone => rw [takeString, if_neg (by decide), if_pos rfl, hnone] at h; cases h
  | case6 b tail str' rest' hsome _ ih =>
    rw [takeString, if_neg (by decide), if_pos rfl, hsome] at h
    obtain ⟨rfl, rfl⟩ := Prod.mk.inj (Option.some.inj h)
    rw [ih hsome]
    rfl
  | case7 f b tail h0 h1 => rw [takeString, if_neg h0, if_neg h1] at h; cases h

theorem takeString_eq_some_iff {bs rest str : List Byte} :
    takeString bs = some (str, rest) ↔ bs = putString str ++ rest :=
  ⟨eq_putString_of_takeString, fun h => h ▸ takeString_putString str rest⟩

theorem takeFlag_eq_some_iff {bs rest : List Byte} {f : Bool} : takeFlag bs = some (f, rest) ↔ bs = putFlag f ++ rest := by
  constructor
  · intro h
    unfold takeFlag at h
    split at h
    · cases h
    · split at h
      next h0 => obtain ⟨rfl, rfl⟩ : false = f ∧ _ = rest := by simpa using h
                 rw [h0]; rfl
      next => 
        split at h
        next h1 => obtain ⟨rfl, rfl⟩ : true = f ∧ _ = rest := by simpa using h
                   rw [h1]; rfl
        next => cases h
  · rintro rfl
    cases f <;> rfl

/-- The two halves of a 32-bit length (R97). -/
theorem length_halves {n : Nat} (h : n < 2 ^ 32) :
    (BitVec.ofNat 16 (n / 2 ^ 16)).toNat * 2 ^ 16 + (BitVec.ofNat 16 n).toNat = n := by
  simp only [BitVec.toNat_ofNat]; omega

theorem takeCounted_eq_some_iff {bs rest data : List Byte} :
    takeCounted bs = some (data, rest) ↔ data.length < 2 ^ 32 ∧ bs = putCounted data ++ rest := by
  constructor
  · intro h
    unfold takeCounted at h
    split at h
    · cases h
    · next hi bs1 hhi =>
      split at h
      · cases h
      · next lo bs2 hlo =>
        dsimp only at h
        split at h
        · next hle =>
          obtain ⟨hdata, rfl⟩ := Prod.mk.inj (Option.some.inj h)
          have hlen : data.length = hi.toNat * 2 ^ 16 + lo.toNat := by rw [← hdata, List.length_take_of_le hle]
          have hhi' := hi.isLt
          have hlo' := lo.isLt
          have hhigh : BitVec.ofNat 16 (data.length / 2 ^ 16) = hi := BitVec.eq_of_toNat_eq (by
            rw [BitVec.toNat_ofNat]; omega)
          have hlow : BitVec.ofNat 16 data.length = lo := BitVec.eq_of_toNat_eq (by
            rw [BitVec.toNat_ofNat]; omega)
          refine ⟨by omega, ?_⟩
          rw [takeHalf_eq_some_iff.mp hhi, takeHalf_eq_some_iff.mp hlo, putCounted, hhigh, hlow, ← hdata]
          simp
        · cases h
  · rintro ⟨hlen, rfl⟩
    have hhigh (h : Half) (tail : List Byte) : takeHalf (putHalf h ++ tail) = some (h, tail) := takeHalf_eq_some_iff.mpr rfl
    simp only [takeCounted, putCounted, List.append_assoc, hhigh, length_halves hlen]
    simp

/-! ## Records -/

theorem kindOfTag_eq_some_iff {k : Byte} {kind : MsgKind} : kindOfTag k = some kind ↔ k = kind.tag := by
  constructor
  · intro h
    revert kind
    revert k
    decide
  · rintro rfl
    cases kind <;> rfl

/-- What is read as the fields of a kind is the image of the message read, and the rest (R92 to R98). -/
theorem takeFields_sound {kind : MsgKind} {bs rest : List Byte} {i : Instr} (h : takeFields kind bs = some (i, rest)) :
    ∃ body, encodeRecord i = some (kind.tag :: body) ∧ bs = body ++ rest := by
  cases kind <;>
    simp only [takeFields, takeHeader, takeComponent, takeHufftable, takeQuanttable, takeMcu, takeCdata,
      Option.bind_eq_bind, Option.bind_eq_some_iff, Option.pure_def, Option.some.injEq, Prod.mk.injEq, Prod.exists,
      takeByte_eq_some_iff, takeHalf_eq_some_iff, takeString_eq_some_iff, takeFlag_eq_some_iff, takeVector_eq_some_iff,
      takeByteVector_eq_some_iff, takeCounted_eq_some_iff] at h
  case header =>
    obtain ⟨_, _, rfl, _, _, rfl, _, _, rfl, _, _, rfl, _, _, rfl, _, _, rfl, _, _, rfl, _, _, rfl, rfl, rfl⟩ := h
    exact ⟨_, rfl, by simp⟩
  case component =>
    obtain ⟨_, _, rfl, _, _, rfl, _, _, rfl, _, _, rfl, _, _, rfl, _, _, rfl, rfl, rfl⟩ := h
    exact ⟨_, rfl, by simp⟩
  case hufftable =>
    obtain ⟨_, _, rfl, _, _, rfl, _, _, rfl, rfl, rfl⟩ := h
    exact ⟨_, rfl, by simp⟩
  case quanttable =>
    obtain ⟨_, _, rfl, _, _, rfl, _, _, rfl, rfl, rfl⟩ := h
    exact ⟨_, rfl, by simp⟩
  case mcu =>
    obtain ⟨_, _, rfl, _, _, rfl, _, _, rfl, rfl, rfl⟩ := h
    exact ⟨_, rfl, by simp⟩
  case cdata =>
    obtain ⟨_, _, ⟨-, rfl⟩, rfl, rfl⟩ := h
    exact ⟨_, rfl, rfl⟩
  case eos =>
    obtain ⟨rfl, rfl⟩ := h
    exact ⟨_, rfl, rfl⟩

section
variable (rest : List Byte)

@[simp] theorem takeByte_cons (b : Byte) : takeByte (b :: rest) = some (b, rest) := rfl
@[simp] theorem takeHalf_putHalf (h : Half) : takeHalf (putHalf h ++ rest) = some (h, rest) := takeHalf_eq_some_iff.mpr rfl
@[simp] theorem takeFlag_putFlag (f : Bool) : takeFlag (putFlag f ++ rest) = some (f, rest) := takeFlag_eq_some_iff.mpr rfl
@[simp] theorem takeVector_putHalves {n : Nat} (v : Vector Half n) :
    takeVector n (putHalves v.toList ++ rest) = some (v, rest) := takeVector_eq_some_iff.mpr rfl
@[simp] theorem takeByteVector_toList {n : Nat} (v : Vector Byte n) :
    takeByteVector n (v.toList ++ rest) = some (v, rest) := takeByteVector_eq_some_iff.mpr rfl

end

/-- The image of a well-formed message reads as the fields of its kind, with anything behind it (R92 to R98). -/
theorem takeFields_complete {i : Instr} {img : List Byte} (h : encodeRecord i = some img) (hw : i.wellFormed = true)
    (rest : List Byte) :
    ∃ kind body, img = MsgKind.tag kind :: body ∧ takeFields kind (body ++ rest) = some (i, rest) := by
  cases i <;> cases h
  case header => exact ⟨.header, _, rfl, by simp [takeFields, takeHeader, takeString_putString]⟩
  case component => exact ⟨.component, _, rfl, rfl⟩
  case hufftable => exact ⟨.hufftable, _, rfl, by simp [takeFields, takeHufftable, takeString_putString]⟩
  case quanttable => exact ⟨.quanttable, _, rfl, by simp [takeFields, takeQuanttable]⟩
  case mcu => exact ⟨.mcu, _, rfl, by simp [takeFields, takeMcu]⟩
  case cdata data =>
    have hcount : takeCounted (putCounted data ++ rest) = some (data, rest) :=
      takeCounted_eq_some_iff.mpr ⟨of_decide_eq_true hw, rfl⟩
    exact ⟨.cdata, _, rfl, by simp [takeFields, takeCdata, hcount]⟩
  case eos => exact ⟨.eos, _, rfl, rfl⟩

/-! ## Records -/

/-- Bytes decode to a message exactly when they are its image and the message is well formed (R73, R91 to R98). -/
theorem decodeRecord_eq_ok_iff {img : List Byte} {i : Instr} :
    decodeRecord img = .ok i ↔ encodeRecord i = some img ∧ i.wellFormed = true := by
  constructor
  · intro h
    refine ⟨?_, (decodeRecord_message h).2⟩
    unfold decodeRecord at h
    split at h
    · cases h
    · next j hfront =>
      obtain rfl := Except.ok.inj h
      unfold decodeFront at hfront
      split at hfront
      · cases hfront
      · next k bs =>
        split at hfront
        · cases hfront
        · next kind hkind =>
          split at hfront
          · cases hfront
          · next i rest hfields =>
            split at hfront
            · obtain ⟨rfl, rfl⟩ := Prod.mk.inj (Except.ok.inj hfront)
              obtain ⟨body, hbody, rfl⟩ := takeFields_sound hfields
              rw [hbody, List.append_nil, kindOfTag_eq_some_iff.mp hkind]
            · cases hfront
    · split at h <;> cases h
  · rintro ⟨h, hw⟩
    obtain ⟨kind, body, rfl, hfields⟩ := takeFields_complete h hw []
    rw [List.append_nil] at hfields
    simp [decodeRecord, decodeFront, kindOfTag_eq_some_iff.mpr rfl, hfields, hw]

/-- A message, and nothing else, has a record image (R117). -/
theorem layer_message_iff (i : Instr) : i.layer = .message ↔ (encodeRecord i).isSome = true := by
  cases i <;> simp [Instr.layer, encodeRecord]

/-- Settles O1: the image of a well-formed message is what decodes to it. -/
theorem messageEncodeDecodeRoundTrip : Obligations.MessageEncodeDecodeRoundTrip := by
  unfold Obligations.MessageEncodeDecodeRoundTrip
  exact fun i => ⟨layer_message_iff i, fun img himg hw => decodeRecord_eq_ok_iff.mpr ⟨himg, hw⟩⟩

/-- Settles O2: what decodes to a message is its image. -/
theorem decodedRecordIsItsOwnImage : Obligations.DecodedRecordIsItsOwnImage := by
  unfold Obligations.DecodedRecordIsItsOwnImage
  intro img i h
  obtain ⟨himg, hw⟩ := decodeRecord_eq_ok_iff.mp h
  exact ⟨hw, (decodeRecord_message h).1, himg⟩

/-! ## Symbol bytes -/

/-- Every byte is the byte of its AC symbol (R106 to R108, R113 (6)). -/
theorem symbolByte_decodeAcSymbol (b : Byte) : symbolByte (decodeAcSymbol b) = some b := by
  revert b
  decide

/-- A byte with a category in its low nibble is a run and a coefficient (R106). -/
theorem acSymbol_runSize {r c : BitVec 4} (hc : c ≠ 0) : acSymbol (r ++ c) = .runSize r c := by
  revert r c
  decide

/-- A byte with low nibble 0 that is neither EOB nor ZRL skips (R113 (6)). -/
theorem acSymbol_skip {r : BitVec 4} (h0 : r ≠ 0) (h15 : r ≠ 15) : acSymbol (r ++ 0#4) = .skip r := by
  revert r
  decide

theorem dcCategory_of_le {c : Nat} (hc : c ≤ 16) : dcCategory (BitVec.ofNat 8 c) = some (BitVec.ofNat 5 c) := by
  interval_cases c <;> rfl

/-- Settles O3: DC categories by their range, AC symbols by their nibbles. -/
theorem symbolBytesHaveOneReading : Obligations.SymbolBytesHaveOneReading := by
  unfold Obligations.SymbolBytesHaveOneReading
  refine ⟨by decide, ?_, symbolByte_decodeAcSymbol, by decide⟩
  intro i hlayer hw hdc
  cases i <;> cases hlayer
  case dccat c => exact absurd rfl (hdc c)
  case acrs r c => exact ⟨r ++ c, rfl, by rw [decodeAcSymbol, acSymbol_runSize (of_decide_eq_true hw)]; rfl⟩
  case eob => exact ⟨0x00, rfl, rfl⟩
  case zrl => exact ⟨0xF0, rfl, rfl⟩
  case acskip r =>
    obtain ⟨h0, h15⟩ := (Bool.and_eq_true _ _).mp hw
    exact ⟨r ++ 0#4, rfl, by
      rw [decodeAcSymbol, acSymbol_skip (of_decide_eq_true h0) (of_decide_eq_true h15)]; rfl⟩

/-- Settles O4, by computing each word. -/
theorem specWordsDecode : Obligations.SpecWordsDecode := by
  unfold Obligations.SpecWordsDecode
  decide

end Sys2Proof
end

section
/-! PROOFS. Taking records: what a step runs (R14, R74), which messages are taken in which state (R220 to R234), and the
terminal states (R273). -/

namespace Sys2Proof.Machine

open Sys2Proof

/-! ## Messages -/

/-- A message's meaning is its rule behind the acceptance table (R220). -/
theorem exec_message {i : Instr} {k : MsgKind} (h : msgKind i = some k) :
    ∃ act, ∀ s, exec i s = .next (s.onMessage k act) := by
  cases i <;> cases h <;> exact ⟨_, fun _ => rfl⟩

theorem msgKind_of_layer {i : Instr} (h : i.layer = .message) : ∃ k, msgKind i = some k := by
  cases i <;> cases h <;> exact ⟨_, rfl⟩

/-- The "V" cells of the acceptance table (R222). -/
theorem State.verdict_violation {s : State} {k : MsgKind}
    (h : (s.scState = .idle ∧ (k = .component ∨ k = .mcu ∨ k = .cdata)) ∨
      (s.scState = .scanActive ∧ s.count ≠ 0 ∧ (k = .component ∨ k = .hufftable ∨ k = .quanttable ∨ k = .cdata))) :
    s.verdict k = .violation := by
  rw [State.verdict]
  obtain ⟨hs, hk⟩ | ⟨hs, hc, hk⟩ := h
  · rw [hs]
    obtain rfl | rfl | rfl := hk <;> rfl
  · rw [hs, bne_iff_ne.mpr hc]
    obtain rfl | rfl | rfl | rfl := hk <;> rfl

/-- Settles O10: the cell of the table decides, and the error is fatal. -/
theorem unexpectedMessageIsAViolation : Obligations.UnexpectedMessageIsAViolation := by
  unfold Obligations.UnexpectedMessageIsAViolation
  intro i k s hk hcell
  obtain ⟨act, hexec⟩ := exec_message hk
  rw [hexec, State.onMessage, State.verdict_violation hcell]
  exact congrArg _ (s.raise_fatal k.tag rfl)

/-- The terminal rows of the acceptance table (R234). -/
theorem State.onMessage_terminal {s : State} (k : MsgKind) (act : State → State)
    (h : s.scState = .halted ∨ s.scState = .exited) :
    s.onMessage k act = if s.scState = .halted ∧ k = .eos then s.emit .eos else s := by
  rw [State.onMessage, State.verdict]
  obtain hs | hs := h
  · rw [hs]
    cases k <;> rfl
  · rw [hs]
    rfl

/-- Settles O11, by the two terminal rows of the table. -/
theorem terminalStatesDropMessages : Obligations.TerminalStatesDropMessages := by
  unfold Obligations.TerminalStatesDropMessages
  intro i k s hk
  obtain ⟨act, hexec⟩ := exec_message hk
  constructor
  · rintro (hs | ⟨hs, hne⟩)
    · rw [hexec, State.onMessage_terminal k act (.inr hs), if_neg (by simp [hs])]
    · rw [hexec, State.onMessage_terminal k act (.inl hs), if_neg (by simp [hne])]
  · intro hs hk
    rw [hexec, State.onMessage_terminal k act (.inl hs), if_pos ⟨hs, hk⟩]
    rfl

/-! ## Steps -/

theorem step_decoded {s : State} {img : List Byte} {rest : List (List Byte)} {i : Instr} (hi : s.issue = none)
    (hp : s.inp = img :: rest) (hd : decodeRecord img = .ok i) : step s = exec i (s.release rest) := by
  simp only [step, hi, hp, hd]

theorem step_rejected {s : State} {img : List Byte} {rest : List (List Byte)} {e : DecodeReject} (hi : s.issue = none)
    (hp : s.inp = img :: rest) (hd : decodeRecord img = .error e) : step s = (s.release rest).onReject e := by
  simp only [step, hi, hp, hd]

/-- Settles O5, by the cases of `step`. -/
theorem stepRunsTheDecodedMessage : Obligations.StepRunsTheDecodedMessage := by
  unfold Obligations.StepRunsTheDecodedMessage
  intro s
  refine ⟨fun img rest i => step_decoded, ?_, ?_⟩
  · intro hi hp
    simp only [step, hi, hp]
  · intro i hi
    simp only [step, hi]

/-- A kind byte outside 0x01 to 0x07 is no kind (R99). -/
theorem decodeRecord_unknownKind {k : Byte} (body : List Byte) (hk : k = 0 ∨ 7 < k.toNat) :
    decodeRecord (k :: body) = .error (.unknownKind k) := by
  have hnone : kindOfTag k = none := by
    revert k
    decide
  simp [decodeRecord, decodeFront, hnone]

theorem State.onUnknownKind_live {s : State} (k : Byte) (h : s.scState = .idle ∨ s.scState = .scanActive) :
    s.onUnknownKind k = s.afterFatal .unknownKind k := by
  rw [← s.raise_fatal k rfl, State.onUnknownKind]
  obtain h | h := h <;> rw [h]

theorem State.onUnknownKind_terminal {s : State} (k : Byte) (h : s.scState = .halted ∨ s.scState = .exited) :
    s.onUnknownKind k = s := by
  rw [State.onUnknownKind]
  obtain h | h := h <;> rw [h]

/-- Settles O6: the record is an unknown kind, which the controller's state decides on. -/
theorem unknownKindIsAViolation : Obligations.UnknownKindIsAViolation := by
  unfold Obligations.UnknownKindIsAViolation
  intro s k body rest hi hp hk
  rw [step_rejected hi hp (decodeRecord_unknownKind body hk)]
  exact ⟨fun hs => congrArg _ (State.onUnknownKind_live (s := s.release rest) k hs),
    fun hs => congrArg _ (State.onUnknownKind_terminal (s := s.release rest) k hs)⟩

/-! ## Totality -/

/-- Every instruction ends in a next state (R17, R282). -/
theorem exec_next (i : Instr) (s : State) : ∃ t, exec i s = .next t := by
  cases i
  case getbit => simp only [exec, execGetbit]; split <;> exact ⟨_, rfl⟩
  case getbits n => simp only [exec, execGetbits]; split <;> exact ⟨_, rfl⟩
  case hlookup => simp only [exec, execHlookup]; split <;> exact ⟨_, rfl⟩
  case emitsym => simp only [exec, execEmitsym]; split <;> exact ⟨_, rfl⟩
  case encodeBlock => simp only [exec, execEncodeBlock]; split <;> exact ⟨_, rfl⟩
  case hdecode => simp only [exec, execHdecode]; split <;> exact ⟨_, rfl⟩
  case recvval => simp only [exec, execRecvval]; split <;> exact ⟨_, rfl⟩
  case decodeBlock => simp only [exec, execDecodeBlock]; split <;> exact ⟨_, rfl⟩
  case precheck => simp only [exec, execPrecheck]; split <;> exact ⟨_, rfl⟩
  case dccat => simp only [exec, execDccat]; split <;> exact ⟨_, rfl⟩
  all_goals exact ⟨_, rfl⟩

theorem State.terminal_iff (s : State) : s.terminal = true ↔ s.scState = .halted ∨ s.scState = .exited := by
  unfold State.terminal
  cases s.scState <;> simp

/-- A record that is none is refused by a live controller only (R265). -/
theorem State.onReject_cases (s : State) (e : DecodeReject) :
    (∃ t, s.onReject e = .next t) ∨ (s.onReject e = .refused .malformedRecord ∧ s.terminal = false) := by
  cases e with
  | unknownKind k => exact .inl ⟨_, rfl⟩
  | empty | malformed | badCategory =>
    cases ht : s.terminal with
    | true => exact .inl ⟨s, by simp [State.onReject, ht]⟩
    | false => exact .inr ⟨by simp [State.onReject, ht], rfl⟩

/-- Settles O7: every instruction is total, and a step of the port stops only on a record that is none. -/
theorem messagesAlwaysComplete : Obligations.MessagesAlwaysComplete := by
  unfold Obligations.MessagesAlwaysComplete
  refine ⟨exec_next, fun s hi => ?_⟩
  obtain ⟨i, hj, -⟩ | ⟨-, -, hs⟩ | ⟨img, rest, i, -, -, -, hs⟩ | ⟨img, rest, e, -, -, -, hs⟩ := step_cases s
  · rw [hi] at hj; cases hj
  · exact .inl ⟨s, hs⟩
  · rw [hs]; exact .inl (exec_next _ _)
  · rw [hs]
    obtain h | ⟨h, hlive⟩ := (s.release rest).onReject_cases e
    · exact .inl h
    · have hterm := mt (State.terminal_iff s).mpr (Bool.not_eq_true _ ▸ hlive)
      rw [not_or] at hterm
      exact .inr ⟨h, hterm⟩

/-- Settles O8, row by row. -/
theorem errorCodesAsListed : Obligations.ErrorCodesAsListed := by
  unfold Obligations.ErrorCodesAsListed
  rfl

/-! ## The terminal states -/

/-- A step of the port in a terminal state takes at most the next record, and at most forwards EOS, in Halted (R234). -/
theorem step_terminal {s t : State} (hi : s.issue = none) (hs : s.scState = .halted ∨ s.scState = .exited)
    (h : step s = .next t) :
    ∃ (m : Nat) (rest : List (List Byte)), t = { s with inp := rest, out := s.out ++ List.replicate m .eos } ∧
      rest <:+ s.inp ∧ (s.scState = .exited → m = 0) := by
  have hdrop (rest : List (List Byte)) : s.release rest = { s with inp := rest, out := s.out ++ List.replicate 0 .eos } := by
    simp [State.release]
  obtain ⟨-, rfl⟩ | ⟨img, rest, i, hp, hd, he⟩ | ⟨rest, k, hp, rfl⟩ | ⟨rest, hp, -, rfl⟩ := step_next_cases hi h
  · exact ⟨0, t.inp, by simp, List.suffix_refl _, fun _ => rfl⟩
  · obtain ⟨k, hk⟩ := msgKind_of_layer (decodeRecord_message hd).1
    obtain ⟨act, hexec⟩ := exec_message hk
    rw [hexec, State.onMessage_terminal (s := s.release rest) k act hs] at he
    obtain rfl := Host.Outcome.next.inj he
    by_cases hfwd : s.scState = .halted ∧ k = .eos
    · exact ⟨1, rest, if_pos hfwd, hp ▸ List.suffix_cons _ _, fun hx => by rw [hx] at hfwd; cases hfwd.1⟩
    · exact ⟨0, rest, (if_neg hfwd).trans (hdrop rest), hp ▸ List.suffix_cons _ _, fun _ => rfl⟩
  · refine ⟨0, rest, ?_, hp ▸ List.tail_suffix _, fun _ => rfl⟩
    rw [← hdrop, State.onUnknownKind_terminal (s := s.release rest) k hs]
  · exact ⟨0, rest, hdrop rest, hp ▸ List.tail_suffix _, fun _ => rfl⟩

/-- A run of one step more is a step and a run. -/
theorem run_succ {M : Host.Core} {n : Nat} {s t : M.State} (h : M.run (n + 1) s = .next t) :
    ∃ s', M.step s = .next s' ∧ M.run n s' = .next t := by
  rw [Host.Core.run] at h
  split at h
  next s' hs => exact ⟨s', hs, h⟩
  next => cases h
  next => cases h

/-- Settles O58, by induction on the steps: each keeps the terminal state and the form of what it changes. -/
theorem onlyResetLeavesATerminalState : Obligations.OnlyResetLeavesATerminalState := by
  unfold Obligations.OnlyResetLeavesATerminalState
  intro n s t hi hs hrun
  induction n generalizing s with
  | zero =>
    obtain rfl := Host.Outcome.next.inj hrun
    exact ⟨0, s.inp, by simp, List.suffix_refl _, fun _ => rfl⟩
  | succ n ih =>
    obtain ⟨s', hstep, hrest⟩ := run_succ hrun
    obtain ⟨m, rest, rfl, hsuf, hm⟩ := step_terminal hi hs hstep
    obtain ⟨m', rest', rfl, hsuf', hm'⟩ := ih { s with inp := rest, out := s.out ++ List.replicate m .eos } hi hs hrest
    exact ⟨m + m', rest', by simp only [List.append_assoc, List.replicate_append_replicate], hsuf'.trans hsuf,
      fun hx => by rw [hm hx, hm' hx]⟩

end Sys2Proof.Machine
end

section
/-! PROOFS. The table stores (R131 to R137): code assignment length by length, what a build writes, and the error of a build that
fails. -/

namespace Sys2Proof.Machine

open Sys2Proof

/-! ## First codes -/

theorem firstCode_one (cnts : List Nat) : firstCode cnts 1 = 0 := rfl

/-- The first code of a length, from the counts behind the first (R133). -/
theorem firstCode_cons (cnt : Nat) (cnts : List Nat) (j : Nat) :
    firstCode (cnt :: cnts) (j + 2) = cnt * 2 ^ (j + 1) + firstCode cnts (j + 1) := by
  simp only [firstCode, Nat.add_one_sub_one, List.range_succ_eq_map, List.map_cons, List.map_map, List.sum_cons]
  congr 1
  refine congrArg List.sum (List.map_congr_left fun i _ => ?_)
  simp

/-- Where the codes end that lie `j` lengths on from a running code (R131, R132). -/
def endCode (cnts : List Nat) (code j : Nat) : Nat := code * 2 ^ j + firstCode cnts (j + 1) + cnts.getD j 0

theorem endCode_zero (cnt : Nat) (cnts : List Nat) (code : Nat) : endCode (cnt :: cnts) code 0 = code + cnt := by
  simp [endCode, firstCode_one]

theorem endCode_succ (cnt : Nat) (cnts : List Nat) (code j : Nat) :
    endCode (cnt :: cnts) code (j + 1) = endCode cnts (2 * (code + cnt)) j := by
  simp only [endCode, firstCode_cons, List.getD_cons_succ]
  ring

/-! ## Code assignment -/

/-- Assignment succeeds when the codes of every length fit it (R132). -/
theorem assignCodes_ok_of_fits {l : Nat} {cnts : List Nat} (syms : List Byte) {code : Nat}
    (h : ∀ j < cnts.length, endCode cnts code j ≤ 2 ^ (l + j)) : ∃ es, assignCodes l cnts syms code = .ok es := by
  induction cnts generalizing l syms code with
  | nil => exact ⟨[], rfl⟩
  | cons cnt cnts ih =>
    have hfit := h 0 (by simp)
    rw [endCode_zero, Nat.add_zero] at hfit
    obtain ⟨es, hes⟩ := ih (l := l + 1) (syms.drop cnt) (code := 2 * (code + cnt)) fun j hj => by
      have hj' := h (j + 1) (by simpa using hj)
      rwa [endCode_succ, ← Nat.add_assoc, Nat.add_right_comm] at hj'
    rw [assignCodes, if_neg (Nat.not_lt.mpr hfit), hes]
    exact ⟨_, rfl⟩

/-- Assignment fails at the first length whose codes do not fit (R132, R135). -/
theorem assignCodes_error_of_over {l : Nat} {cnts : List Nat} (syms : List Byte) {code j : Nat} (hj : j < cnts.length)
    (hover : 2 ^ (l + j) < endCode cnts code j) (hfirst : ∀ i < j, endCode cnts code i ≤ 2 ^ (l + i)) :
    assignCodes l cnts syms code = .error (l + j) := by
  induction cnts generalizing l syms code j with
  | nil => cases hj
  | cons cnt cnts ih =>
    cases j with
    | zero =>
      rw [endCode_zero, Nat.add_zero] at hover
      rw [assignCodes, if_pos hover]
      rfl
    | succ j =>
      have hfit := hfirst 0 (by omega)
      rw [endCode_zero, Nat.add_zero] at hfit
      have hrest := ih (l := l + 1) (syms.drop cnt) (code := 2 * (code + cnt)) (j := j) (by simpa using hj)
        (by rwa [endCode_succ, ← Nat.add_assoc, Nat.add_right_comm] at hover) fun i hi => by
          have hi' := hfirst (i + 1) (by omega)
          rwa [endCode_succ, ← Nat.add_assoc, Nat.add_right_comm] at hi'
      rw [assignCodes, if_neg (Nat.not_lt.mpr hfit), hrest, ← Nat.add_assoc, Nat.add_right_comm]

/-- The `p`-th symbol of the length `j` places on gets the `p`-th code from that length's first (R131, R133). -/
theorem assignCodes_getElem? {l : Nat} {cnts : List Nat} {syms : List Byte} {code j p : Nat} {es : List HuffEntry}
    (h : assignCodes l cnts syms code = .ok es) (hsum : cnts.sum ≤ syms.length) (hp : p < cnts.getD j 0) :
    es[symbolsUpTo cnts j + p]? = (syms[symbolsUpTo cnts j + p]?).map (fun sym =>
      { sym := sym, len := BitVec.ofNat 5 (l + j), code := BitVec.ofNat 16 (code * 2 ^ j + firstCode cnts (j + 1) + p) }) := by
  unfold symbolsUpTo
  induction cnts generalizing l syms code j es with
  | nil => simp at hp
  | cons cnt cnts ih =>
    obtain ⟨-, rest, hrest, rfl⟩ := assignCodes_cons_ok h
    rw [List.sum_cons] at hsum
    have hlen : (codesOfLength l code (syms.take cnt)).length = cnt := by simp; omega
    cases j with
    | zero =>
      have hp' : p < cnt := hp
      rw [List.take_zero, List.sum_nil, Nat.zero_add, List.getElem?_append_left (by omega), codesOfLength_getElem?,
        List.getElem?_take_of_lt hp']
      simp [firstCode_one]
    | succ j =>
      have hcode : code * 2 ^ (j + 1) + firstCode (cnt :: cnts) (j + 2) = 2 * (code + cnt) * 2 ^ j + firstCode cnts (j + 1) := by
        rw [firstCode_cons]; ring
      have htail := ih hrest (by rw [List.length_drop]; omega) hp
      rw [List.getElem?_drop] at htail
      rw [List.take_succ_cons, List.sum_cons, Nat.add_assoc, List.getElem?_append_right (by omega), hlen,
        Nat.add_sub_cancel_left, htail, hcode, Nat.add_right_comm l 1 j]
      rfl

/-- The lengths of the entries are those of the histogram, in order (R36). -/
theorem assignCodes_lengths {l : Nat} {cnts : List Nat} {syms : List Byte} {code : Nat} {es : List HuffEntry}
    (hl : l + cnts.length ≤ 17) (h : assignCodes l cnts syms code = .ok es) (hsum : cnts.sum ≤ syms.length) :
    es.map (fun e => e.len.toNat) = entryLengths l cnts := by
  induction cnts generalizing l syms code es with
  | nil => simp only [assignCodes, Except.ok.injEq] at h; simp [← h, entryLengths]
  | cons cnt cnts ih =>
    rw [List.length_cons] at hl
    rw [List.sum_cons] at hsum
    obtain ⟨hfit, rest, hrest, rfl⟩ := assignCodes_cons_ok h
    have hlen : (codesOfLength l code (syms.take cnt)).length = cnt := by simp; omega
    have hhead : (codesOfLength l code (syms.take cnt)).map (fun e => e.len.toNat) = List.replicate cnt l := by
      refine List.eq_replicate_iff.mpr ⟨by simpa using hlen, fun n hn => ?_⟩
      obtain ⟨e, he, rfl⟩ := List.mem_map.mp hn
      have htake := List.length_take_le cnt syms
      exact (codesOfLength_bounds (by omega) (by omega) he).1
    rw [List.map_append, hhead, ih (by omega) hrest (by rw [List.length_drop]; omega), entryLengths]

/-! ## A build -/

theorem lengthsSum_eq (lengths : Vector Half 16) : lengthsSum lengths = (histogram lengths).sum := rfl

@[simp] theorem histogram_length (lengths : Vector Half 16) : (histogram lengths).length = 16 := by simp [histogram]

theorem buildEntries_length {id : Byte} {lengths : Vector Half 16} {table : List Byte} {es : List HuffEntry}
    (h : buildEntries id lengths table = .ok es) : es.length = (histogram lengths).sum := by
  obtain ⟨-, -, hlen, hassign⟩ := buildEntries_ok h
  have hsyms := congrArg List.length (assignCodes_syms hassign)
  rw [List.length_map, List.length_take, hlen, lengthsSum_eq] at hsyms
  simpa [histogram] using hsyms

/-- A count of a build fits its 9-bit register (R35). -/
theorem builtSlot_cnt {lengths : Vector Half 16} (h : (histogram lengths).sum ≤ 256) (es : List HuffEntry) (i : Fin 16) :
    ((builtSlot lengths es).cnt[i]).toNat = (lengths[i]).toNat := by
  have hle : (lengths[i]).toNat ≤ (histogram lengths).sum :=
    List.le_sum_of_mem (List.mem_map_of_mem (by simp))
  simp only [builtSlot, Fin.getElem_fin, Vector.getElem_ofFn, BitVec.toNat_setWidth] at hle ⊢
  exact Nat.mod_eq_of_lt (by omega)

theorem builtSlot_histogram {lengths : Vector Half 16} (h : (histogram lengths).sum ≤ 256) (es : List HuffEntry) :
    (builtSlot lengths es).cnt.toList.map BitVec.toNat = histogram lengths := by
  refine List.ext_getElem (by simp [histogram]) fun i hi _ => ?_
  have hi' : i < 16 := by simpa using hi
  simpa [histogram] using builtSlot_cnt h es ⟨i, hi'⟩

theorem builtSlot_n {lengths : Vector Half 16} (h : (histogram lengths).sum ≤ 256) (es : List HuffEntry) :
    (builtSlot lengths es).n.toNat = (histogram lengths).sum := by
  rw [← lengthsSum_eq] at h ⊢
  exact Nat.mod_eq_of_lt (by omega)

/-- Settles O18, from what assignment guarantees of lengths, codes and spans. -/
theorem builtSlotIsWellFormed : Obligations.BuiltSlotIsWellFormed := by
  unfold Obligations.BuiltSlotIsWellFormed
  intro id lengths table es h _
  obtain ⟨-, hmax, hlen, hassign⟩ := buildEntries_ok h
  have hn := builtSlot_n hmax es
  rw [hn, builtSlot_histogram hmax es]
  exact ⟨buildEntries_length h, rfl, hmax, assignCodes_lengths (by simp) hassign hlen.ge, buildEntries_bounds h,
    buildEntries_spans h⟩

/-! ## The composite table id -/

/-- The ids of R101 are legal, and name their class and slot. -/
theorem tableIdOf_spec (cls : HuffClass) (t : SlotId) :
    tableIdLegal (tableIdOf cls t) = true ∧ tableIdClass (tableIdOf cls t) = cls ∧ tableIdSlot (tableIdOf cls t) = t := by
  cases cls <;> revert t <;> decide

theorem tableIdLegal_of_out_of_range {id : Byte} (h : id.toNat / 32 ≠ 0 ∨ 4 ≤ id.toNat % 16) : tableIdLegal id = false := by
  revert id
  decide

/-! ## BUILDCODES and HUFFTABLE -/

theorem exec_buildcodes (s : State) (id : Byte) (lengths : Vector Half 16) (table : List Byte) :
    exec (.buildcodes id lengths table) s = .next (s.buildCodes id lengths table) := rfl

/-- HUFFTABLE is BUILDCODES where it is accepted (R226). -/
theorem exec_hufftable_of_acceptsTables {s : State} (id : Byte) (bytes : Vector Byte 16) (table : List Byte)
    (h : s.acceptsTables) : exec (.hufftable id bytes table) s = .next (s.buildCodes id (wideLengths bytes) table) :=
  congrArg Host.Outcome.next (State.onMessage_of_accept _ (State.verdict_of_acceptsTables (.inl rfl) h))

/-- Behind the message checks a build is its code assignment (R135). -/
theorem buildEntries_of_assign {id : Byte} {lengths : Vector Half 16} {table : List Byte} {r : Except Nat (List HuffEntry)}
    (hid : tableIdLegal id = true) (hmax : (histogram lengths).sum ≤ 256) (hlen : table.length = (histogram lengths).sum)
    (h : assignCodes 1 (histogram lengths) table 0 = r) :
    buildEntries id lengths table = r.mapError (fun l => (.overSubscribed, l)) := by
  have hsum : ¬ Config.maxSym < lengthsSum lengths := Nat.not_lt.mpr hmax
  have hlist : ¬ table.length ≠ lengthsSum lengths := not_not.mpr hlen
  rw [buildEntries, if_neg (by simp [hid]), if_neg hsum, if_neg hlist, ← histogram, h]
  cases r <;> rfl

/-- A build succeeds on a legal id, at most 256 symbols, a matching list and no over-subscribed length (R135). -/
theorem buildEntries_of_fits {id : Byte} {lengths : Vector Half 16} {table : List Byte} (hid : tableIdLegal id = true)
    (hmax : (histogram lengths).sum ≤ 256) (hlen : table.length = (histogram lengths).sum)
    (hfit : fitsCodeSpace (histogram lengths)) : ∃ es, buildEntries id lengths table = .ok es := by
  obtain ⟨es, hes⟩ := assignCodes_ok_of_fits (l := 1) (cnts := histogram lengths) (code := 0) table fun j hj => by
    have hj' := hfit (1 + j) (by omega) (by rw [histogram_length] at hj; omega)
    simpa [endCode, Nat.add_comm 1 j] using hj'
  exact ⟨es, buildEntries_of_assign hid hmax hlen hes⟩

/-- The symbols of a length come behind those of the shorter ones (R102). -/
theorem symbolsUpTo_add_le (cnts : List Nat) {j : Nat} (hj : j < cnts.length) :
    symbolsUpTo cnts j + cnts.getD j 0 ≤ cnts.sum := by
  rw [symbolsUpTo, List.getD_eq_getElem _ _ hj, ← List.sum_take_succ _ _ hj, ← List.sum_take_add_sum_drop cnts (j + 1)]
  exact Nat.le_add_right _ _

/-- The code of each symbol of a successful build (R131, R133). -/
theorem buildEntries_getElem? {id : Byte} {lengths : Vector Half 16} {table : List Byte} {es : List HuffEntry}
    (h : buildEntries id lengths table = .ok es) (hfit : fitsCodeSpace (histogram lengths)) {l p : Nat} (hmin : 1 ≤ l)
    (hmax : l ≤ 16) (hp : p < (histogram lengths).getD (l - 1) 0) :
    ∃ e, es[symbolsUpTo (histogram lengths) (l - 1) + p]? = some e ∧
      table[symbolsUpTo (histogram lengths) (l - 1) + p]? = some e.sym ∧
      e.len.toNat = l ∧ e.code.toNat = firstCode (histogram lengths) l + p := by
  obtain ⟨-, -, hlen, hassign⟩ := buildEntries_ok h
  rw [lengthsSum_eq] at hlen
  rw [← histogram] at hassign
  have hindex := symbolsUpTo_add_le (histogram lengths) (j := l - 1) (by rw [histogram_length]; omega)
  have hsym := List.getElem?_eq_getElem (l := table) (i := symbolsUpTo (histogram lengths) (l - 1) + p) (by omega)
  have hentry := assignCodes_getElem? hassign hlen.ge hp
  rw [show l - 1 + 1 = l by omega, show 1 + (l - 1) = l by omega, Nat.zero_mul, Nat.zero_add] at hentry
  rw [hsym, Option.map_some] at hentry
  have hcode := hfit l hmin hmax
  have hpow : 2 ^ l ≤ 2 ^ 16 := Nat.pow_le_pow_right (by decide) hmax
  refine ⟨_, hentry, hsym, ?_, ?_⟩
  · rw [BitVec.toNat_ofNat]; exact Nat.mod_eq_of_lt (by omega)
  · rw [BitVec.toNat_ofNat]; exact Nat.mod_eq_of_lt (by omega)

/-- Settles O15: the build succeeds, and each entry is the one assignment gives its symbol. -/
theorem buildcodesAssignsCanonicalCodes : Obligations.BuildcodesAssignsCanonicalCodes := by
  unfold Obligations.BuildcodesAssignsCanonicalCodes
  intro s cls t lengths table hmax hlen hfit
  obtain ⟨hid, hcls, hslot⟩ := tableIdOf_spec cls t
  obtain ⟨es, hes⟩ := buildEntries_of_fits hid hmax hlen hfit
  have hbuild : s.buildCodes (tableIdOf cls t) lengths table = s.setHuff cls t (builtSlot lengths es) := by
    rw [State.buildCodes, hes, hcls, hslot]
  refine ⟨builtSlot lengths es, s.setHuff cls t (builtSlot lengths es), rfl, builtSlot_n hmax es, buildEntries_length hes,
    builtSlot_cnt hmax es, fun l p => buildEntries_getElem? hes hfit, by cases cls <;> rfl, ?_, ?_⟩
  · rw [exec_buildcodes, hbuild]
  · rintro bytes rfl haccept
    rw [exec_hufftable_of_acceptsTables _ _ _ haccept, hbuild]

/-! ## A build that fails -/

theorem State.spoil_illegal {id : Byte} (s : State) (h : tableIdLegal id = false) : s.spoil id = s := by
  rw [State.spoil, h]
  rfl

/-- A failed build raises its error on the state whose slot it has invalidated (R135, R136). -/
theorem State.buildCodes_error {s : State} {id : Byte} {lengths : Vector Half 16} {table : List Byte} {c : Cause} {l : Nat}
    (h : buildEntries id lengths table = .error (c, l)) (hc : c.kind.fatal = true) :
    s.buildCodes id lengths table = (s.spoil id).afterFatal c (buildAux id (c, l)) := by
  rw [State.buildCodes, h]
  exact State.raise_fatal _ _ hc

/-- With a legal id the addressed slot is invalidated, beside the error's own effect (R136). -/
theorem State.afterFatal_spoil (s : State) (cls : HuffClass) (t : SlotId) (c : Cause) (aux : Byte) :
    (s.spoil (tableIdOf cls t)).afterFatal c aux
      = { (s.afterFatal c aux).setHuff cls t (spoiledSlot s.freeIx) with freeIx := s.freeIx + 1 } := by
  obtain ⟨hid, hcls, hslot⟩ := tableIdOf_spec cls t
  rw [State.spoil, if_pos hid, hcls, hslot]
  cases cls <;> rfl

/-- The first failing check decides the cause (R135). -/
theorem buildEntries_error {id : Byte} {lengths : Vector Half 16} {table : List Byte} {c : Cause} {aux : Byte}
    (hid : tableIdLegal id = true)
    (h : (c = .tooManySymbols ∧ aux = id ∧ 256 < (histogram lengths).sum) ∨
       (c = .countMismatch ∧ aux = id ∧ (histogram lengths).sum ≤ 256 ∧ table.length ≠ (histogram lengths).sum) ∨
       (c = .overSubscribed ∧ (histogram lengths).sum ≤ 256 ∧ table.length = (histogram lengths).sum ∧
        ∃ l, 1 ≤ l ∧ l ≤ 16 ∧ aux = BitVec.ofNat 8 l ∧
          2 ^ l < firstCode (histogram lengths) l + (histogram lengths).getD (l - 1) 0 ∧
          ∀ l', 1 ≤ l' → l' < l →
            firstCode (histogram lengths) l' + (histogram lengths).getD (l' - 1) 0 ≤ 2 ^ l')) :
    ∃ l, buildEntries id lengths table = .error (c, l) ∧ buildAux id (c, l) = aux ∧ c.kind.fatal = true := by
  obtain ⟨rfl, rfl, hmax⟩ | ⟨rfl, rfl, hmax, hlen⟩ | ⟨rfl, hmax, hlen, l, hmin, hle, rfl, hover, hfirst⟩ := h
  · have hsum : Config.maxSym < lengthsSum lengths := hmax
    exact ⟨0, by rw [buildEntries, if_neg (by simp [hid]), if_pos hsum], rfl, rfl⟩
  · have hsum : ¬ Config.maxSym < lengthsSum lengths := Nat.not_lt.mpr hmax
    have hlist : table.length ≠ lengthsSum lengths := hlen
    exact ⟨0, by rw [buildEntries, if_neg (by simp [hid]), if_neg hsum, if_pos hlist], rfl, rfl⟩
  · obtain ⟨j, rfl⟩ : ∃ j, l = 1 + j := ⟨l - 1, by omega⟩
    have herror : assignCodes 1 (histogram lengths) table 0 = .error (1 + j) :=
      assignCodes_error_of_over table (by rw [histogram_length]; omega)
        (by simpa [endCode, Nat.add_comm 1 j] using hover) fun i hi => by
          have hi' := hfirst (1 + i) (by omega) (by omega)
          simpa [endCode, Nat.add_comm 1 i] using hi'
    exact ⟨1 + j, buildEntries_of_assign hid hmax hlen herror, rfl, rfl⟩

/-- Settles O16: the error a build raises, on a state with the addressed slot, if there is one, invalidated. -/
theorem malformedTableHaltsTheStream : Obligations.MalformedTableHaltsTheStream := by
  unfold Obligations.MalformedTableHaltsTheStream
  intro s id lengths table
  constructor
  · intro hrange
    have hid := tableIdLegal_of_out_of_range hrange
    have hbuild : s.buildCodes id lengths table = s.afterFatal .badId id := by
      have herror : buildEntries id lengths table = .error (.badId, 0) := if_pos hid
      rw [State.buildCodes_error herror rfl, s.spoil_illegal hid]
      rfl
    refine ⟨by rw [exec_buildcodes, hbuild], ?_⟩
    rintro bytes rfl haccept
    rw [exec_hufftable_of_acceptsTables _ _ _ haccept, hbuild]
  · rintro cls t c aux rfl hcause
    obtain ⟨l, herror, haux, hfatal⟩ := buildEntries_error (tableIdOf_spec cls t).1 hcause
    have hbuild := State.buildCodes_error (s := s) herror hfatal
    rw [haux, State.afterFatal_spoil] at hbuild
    refine ⟨spoiledSlot s.freeIx, _, rfl, ?_, by rw [exec_buildcodes, hbuild], ?_⟩
    · cases cls <;> rfl
    · rintro bytes rfl haccept
      rw [exec_hufftable_of_acceptsTables _ _ _ haccept, hbuild]

end Sys2Proof.Machine
end

section
/-! PROOFS. The Packer's operations run on their own (R150 to R154), and the value coding (R109, R110, R170, R172, R192). -/

namespace Sys2Proof.Machine

open Sys2Proof

/-! ## PUTBITS, FINALIZE and the restarts -/

@[simp] theorem msbBits_length (v n : Nat) : (msbBits v n).length = n := by simp [msbBits]

/-- PUTBITS moves `NBITS` on by the length, modulo 8 (R150). -/
theorem Packer.putBits_nbits (v n : Nat) {p : Packer} (h : p.wf) : (p.putBits v n).nbits.val = (p.nbits.val + n) % 8 := by
  rw [← Packer.bits_length_mod, Packer.putBits_bits v n h, List.length_append, msbBits_length, ← p.bits_length_mod,
    Nat.mod_add_mod]

/-- Settles O20, from what PUTBITS makes of a well-formed Packer. -/
theorem putbitsAppendsBits : Obligations.PutbitsAppendsBits := by
  unfold Obligations.PutbitsAppendsBits
  exact fun s v n h => ⟨s.packer.putBits v n, rfl, Packer.putBits_wf v n h, Packer.putBits_bits v n h, Packer.putBits_nbits v n h⟩

theorem Packer.finalize_wf {p : Packer} (h : p.wf) : p.finalize.wf := by
  refine ⟨?_, Packer.finalize_stuffed h.2⟩
  by_cases hn : p.nbits = 0
  · rw [Packer.finalize_of_aligned hn]; exact h.1
  · rw [Packer.finalize_of_partial hn]; rfl

theorem exec_finalize (s : State) : exec .finalize s = .next { s with packer := s.packer.finalize } := rfl

/-- Settles O22, by whether a byte is begun. -/
theorem finalizePadsWithOnes : Obligations.FinalizePadsWithOnes := by
  unfold Obligations.FinalizePadsWithOnes
  intro s
  constructor
  · intro hn
    rw [exec_finalize, Packer.finalize_of_aligned hn]
  · intro h
    refine ⟨s.packer.finalize, rfl, Packer.finalize_wf h, Packer.finalize_nbits _, ?_, Packer.finalize_bits h.2⟩
    by_cases hn : s.packer.nbits = 0
    · rw [Packer.finalize_of_aligned hn, if_pos hn]
    · rw [Packer.finalize_of_partial hn, if_neg hn]

/-- Settles O23: a restart is the update of its cursor. -/
theorem restartsClearTheCursors : Obligations.RestartsClearTheCursors := by
  unfold Obligations.RestartsClearTheCursors
  exact fun s => ⟨rfl, rfl⟩

/-! ## CATEGORY -/

/-- `c` is the category of `v`: 0 for 0, otherwise the bit length of the absolute value (R170). -/
def IsCategory (v : Int) (c : Nat) : Prop := v.natAbs < 2 ^ c ∧ (c = 0 ∨ 2 ^ (c - 1) ≤ v.natAbs)

theorem categoryOf_of_ne_zero {v : Int} (h : v ≠ 0) : categoryOf v = v.natAbs.log2 + 1 :=
  if_neg (Int.natAbs_ne_zero.mpr h)

theorem categoryOf_isCategory (v : Int) : IsCategory v (categoryOf v) := by
  by_cases h : v = 0
  · rw [h]
    exact ⟨by decide, .inl rfl⟩
  · rw [categoryOf_of_ne_zero h]
    exact ⟨Nat.lt_log2_self, .inr (Nat.log2_self_le (Int.natAbs_ne_zero.mpr h))⟩

/-- A category is below another's as soon as its lower bound lies below the other's upper one. -/
theorem IsCategory.le {v : Int} {c d : Nat} (hc : IsCategory v c) (hd : IsCategory v d) : c ≤ d := by
  obtain ⟨-, rfl | hlow⟩ := hc
  · exact Nat.zero_le d
  · have hpow := (Nat.pow_lt_pow_iff_right (by decide)).mp (Nat.lt_of_le_of_lt hlow hd.1)
    omega

theorem IsCategory.categoryOf_eq {v : Int} {c : Nat} (h : IsCategory v c) : categoryOf v = c :=
  Nat.le_antisymm ((categoryOf_isCategory v).le h) (h.le (categoryOf_isCategory v))

theorem categoryOf_pos {v : Int} (h : v ≠ 0) : 1 ≤ categoryOf v := by
  rw [categoryOf_of_ne_zero h]
  exact Nat.le_add_left 1 _

theorem categoryOf_le_of_natAbs_lt {v : Int} {n : Nat} (h : v.natAbs < 2 ^ n) : categoryOf v ≤ n := by
  obtain ⟨-, h0 | hlow⟩ := categoryOf_isCategory v
  · omega
  · have hpow := (Nat.pow_lt_pow_iff_right (by decide)).mp (Nat.lt_of_le_of_lt hlow h)
    omega

/-- Settles O28: the category of `v` is unique, and 0 only for 0. -/
theorem categoryCountsBits : Obligations.CategoryCountsBits := by
  unfold Obligations.CategoryCountsBits
  intro v s
  refine ⟨categoryOf v, rfl, fun h => h ▸ rfl, fun h => ?_⟩
  obtain ⟨hlt, h0 | hlow⟩ := categoryOf_isCategory v
  · exact absurd h0 (Nat.pos_iff_ne_zero.mp (categoryOf_pos h))
  · exact ⟨categoryOf_pos h, hlow, hlt⟩

/-! ## MAG and UNMAG -/

/-- The magnitude field of a value (R172). -/
theorem IsCategory.magField_eq {v : Int} {c : Nat} (h : IsCategory v c) :
    ∃ b : Nat, b < 2 ^ c ∧ magField v c = b ∧ (0 < v → (b : Int) = v) ∧ (v ≤ 0 → (b : Int) = v + 2 ^ c - 1) := by
  obtain ⟨hlt, -⟩ := h
  have hcast : ((2 ^ c : Nat) : Int) = (2 : Int) ^ c := by norm_cast
  refine ⟨(magField v c).toNat, ?_⟩
  rw [magField, ← hcast]
  split <;> omega

theorem two_pow_succ_cast (c : Nat) : (2 : Int) ^ (c + 1) = ((2 * 2 ^ c : Nat) : Int) := by push_cast; ring

theorem unmagField_of_high {b c : Nat} (h : 2 ^ c ≤ b) : unmagField b (c + 1) = b := by
  rw [unmagField, if_neg (Nat.succ_ne_zero c)]
  exact if_pos h

theorem unmagField_of_low {b c : Nat} (h : b < 2 ^ c) : unmagField b (c + 1) = (b : Int) - (2 ^ (c + 1) - 1) := by
  rw [unmagField, if_neg (Nat.succ_ne_zero c)]
  exact if_neg (Nat.not_le.mpr h)

/-- UNMAG brings a value back from its field (R192). -/
theorem IsCategory.unmagField_magField {v : Int} {c : Nat} (h : IsCategory v c) : unmagField (magField v c).toNat c = v := by
  obtain ⟨b, hb, hmag, hpos, hneg⟩ := h.magField_eq
  obtain ⟨hlt, hlow⟩ := h
  rw [hmag, Int.toNat_natCast]
  cases c with
  | zero =>
    obtain rfl : v = 0 := by omega
    rfl
  | succ c =>
    have hlow' : 2 ^ c ≤ v.natAbs := by simpa using hlow
    rw [two_pow_succ_cast] at hneg
    rw [Nat.pow_succ'] at hlt
    by_cases hv : 0 < v
    · rw [unmagField_of_high (by omega), hpos hv]
    · rw [unmagField_of_low (by omega), two_pow_succ_cast]
      omega

/-- UNMAG of a field is a value of its category, from whose field MAG returns (R172, R192). -/
theorem unmagField_spec {b c : Nat} (hc : 1 ≤ c) (hb : b < 2 ^ c) :
    (2 ^ (c - 1) ≤ b → unmagField b c = b) ∧ (b < 2 ^ (c - 1) → unmagField b c = b - (2 ^ c - 1)) ∧
      IsCategory (unmagField b c) c ∧ magField (unmagField b c) c = b := by
  obtain ⟨c, rfl⟩ : ∃ d, c = d + 1 := ⟨c - 1, by omega⟩
  refine ⟨unmagField_of_high, unmagField_of_low, ?_⟩
  have hpos := Nat.two_pow_pos c
  rw [IsCategory, Nat.pow_succ', Nat.add_one_sub_one]
  rw [Nat.pow_succ'] at hb
  by_cases h : 2 ^ c ≤ b
  · rw [unmagField_of_high h, magField, if_pos (by omega)]
    omega
  · rw [unmagField_of_low (by omega), two_pow_succ_cast, magField, if_neg (by omega), two_pow_succ_cast]
    omega

theorem exec_mag (v : Int) (c : Nat) (s : State) : exec (.mag v c) s = .next (s.returning (.int (magField v c))) := rfl
theorem exec_unmag (b c : Nat) (s : State) : exec (.unmag b c) s = .next (s.returning (.int (unmagField b c))) := rfl

/-- Settles O29: UNMAG undoes MAG on the values of a category, and MAG undoes UNMAG on its fields. -/
theorem magAndUnmagAreInverse : Obligations.MagAndUnmagAreInverse := by
  unfold Obligations.MagAndUnmagAreInverse
  refine ⟨?_, ?_, fun b s => rfl⟩
  · intro v c s hlt hlow
    have hcat : IsCategory v c := ⟨hlt, hlow⟩
    obtain ⟨b, hb, hmag, hpos, hneg⟩ := hcat.magField_eq
    have hback := hcat.unmagField_magField
    rw [hmag, Int.toNat_natCast] at hback
    exact ⟨b, hb, hpos, hneg, by rw [exec_mag, hmag], by rw [exec_unmag, hback]⟩
  · intro b c s hc hb
    obtain ⟨hhigh, hlow, ⟨hmax, hmin⟩, hmag⟩ := unmagField_spec hc hb
    exact ⟨unmagField b c, rfl, hhigh, hlow, hmin.resolve_left (by omega), hmax, by rw [exec_mag, hmag]⟩

end Sys2Proof.Machine
end

section
/-! PROOFS. Reads (R156 to R161, R193) and the symbols that read values (R105 to R108, R197 to R201): what they answer on an
Unpacker that delivers given bits, or fails behind them. -/

namespace Sys2Proof.Machine

open Sys2Proof

/-! ## GETBIT -/

/-- A marker ends the segment and is kept (R160). -/
theorem Unpacker.getBit_of_marker {u : Unpacker} {b : Byte} (hseg : u.eoseg = false) (hff : u.ibuf[u.ipos]? = some 0xFF)
    (hbit : u.ibit = 0) (hb : u.ibuf[u.ipos + 1]? = some b) (hne : b ≠ 0) :
    u.getBit = .fail true { u with marker := b, eoseg := true } := by
  have hpos : ¬ u.ibuf.length ≤ u.ipos := Nat.not_le.mpr (List.getElem?_eq_some_iff.mp hff).1
  have hpos' : ¬ u.ibuf.length ≤ u.ipos + 1 := Nat.not_le.mpr (List.getElem?_eq_some_iff.mp hb).1
  simp only [Unpacker.getBit, hseg, Bool.false_eq_true, if_false, hpos, hpos', hbit, memRead_of_getElem? hff,
    memRead_of_getElem? hb, and_self, if_true, if_pos hne]

/-- A trailing 0xFF ends the data (R157). -/
theorem Unpacker.getBit_of_trailing {u : Unpacker} (hseg : u.eoseg = false) (hff : u.ibuf[u.ipos]? = some 0xFF)
    (hbit : u.ibit = 0) (hend : u.ibuf[u.ipos + 1]? = none) : u.getBit = .fail false { u with eoseg := true } := by
  have hpos : ¬ u.ibuf.length ≤ u.ipos := Nat.not_le.mpr (List.getElem?_eq_some_iff.mp hff).1
  have hpos' : u.ibuf.length ≤ u.ipos + 1 := List.getElem?_eq_none_iff.mp hend
  simp [Unpacker.getBit, hseg, hpos, hpos', hbit, memRead_of_getElem? hff]

/-- An ended segment delivers nothing (R161). -/
theorem Unpacker.getBit_of_ended {u : Unpacker} (h : u.eoseg = true) : u.getBit = .fail false u := by
  rw [Unpacker.getBit, if_pos h]

theorem State.getBit_of_bit {s : State} {b : Bool} {u : Unpacker} (h : s.unp.getBit = .bit b u) :
    s.getBit = (some b, { s with unp := u }) := by
  simp only [State.getBit, h]

theorem State.getBit_of_fail {s : State} {marker : Bool} {u : Unpacker} (h : s.unp.getBit = .fail marker u) :
    s.getBit = (none, s.afterFailedRead marker u) := by
  cases marker <;> simp only [State.getBit, h] <;> rfl

theorem exec_getbit_of_bit {s : State} {b : Bool} {u : Unpacker} (h : s.unp.getBit = .bit b u) :
    exec .getbit s = .next (State.returning (.bit b) { s with unp := u }) := by
  simp only [exec, execGetbit, State.getBit_of_bit h]
  rfl

theorem exec_getbit_of_fail {s : State} {marker : Bool} {u : Unpacker} (h : s.unp.getBit = .fail marker u) :
    exec .getbit s = .next (State.returning .fail (s.afterFailedRead marker u)) := by
  simp only [exec, execGetbit, State.getBit_of_fail h]
  rfl

/-- Settles O25, line by line of GETBIT. -/
theorem getbitReadsOneBit : Obligations.GetbitReadsOneBit := by
  unfold Obligations.GetbitReadsOneBit
  intro s b
  refine ⟨?_, ?_, ?_, ?_, ?_⟩
  · intro hseg
    exact exec_getbit_of_fail (Unpacker.getBit_of_ended hseg)
  · intro hseg hend
    exact exec_getbit_of_fail (Unpacker.getBit_of_exhausted hseg (List.getElem?_eq_none_iff.mp hend))
  · intro hseg hff hbit hend
    exact exec_getbit_of_fail (Unpacker.getBit_of_trailing hseg hff hbit hend)
  · intro hseg hff hbit hne hb
    exact exec_getbit_of_fail (Unpacker.getBit_of_marker hseg hff hbit hb hne)
  · intro hseg hb hstuff
    exact exec_getbit_of_bit (Unpacker.getBit_of_data hseg hb hstuff)

/-! ## GETBITS -/

/-- The loop of GETBITS takes in the bits delivered (R159). -/
theorem State.getBitsFrom_of_reads {bs : List Bool} {s : State} {u : Unpacker} (v n : Nat)
    (h : Unpacker.reads bs s.unp = some u) :
    State.getBitsFrom v (bs.length + n) s
      = State.getBitsFrom (bs.foldl (fun v b => 2 * v + b.toNat) v) n { s with unp := u } := by
  induction bs generalizing s v with
  | nil =>
    obtain rfl := Option.some.inj h
    rw [List.length_nil, Nat.zero_add]
    rfl
  | cons b bs ih =>
    obtain ⟨u', hb, hrest⟩ := Unpacker.reads_cons_some h
    rw [List.length_cons, Nat.add_right_comm, State.getBitsFrom, State.getBit_of_bit hb]
    exact ih (s := { s with unp := u' }) _ hrest

theorem State.getBits_of_reads {bs : List Bool} {s : State} {u : Unpacker} (h : Unpacker.reads bs s.unp = some u) :
    s.getBits bs.length = (some (bitsValue bs), { s with unp := u }) :=
  State.getBitsFrom_of_reads 0 0 h

theorem State.getBits_of_fail {bs : List Bool} {s : State} {u u' : Unpacker} {marker : Bool} {n : Nat} (hn : bs.length < n)
    (h : Unpacker.reads bs s.unp = some u) (hfail : u.getBit = .fail marker u') :
    s.getBits n = (none, s.afterFailedRead marker u') := by
  obtain ⟨k, rfl⟩ : ∃ k, n = bs.length + (k + 1) := ⟨n - bs.length - 1, by omega⟩
  rw [State.getBits, State.getBitsFrom_of_reads 0 (k + 1) h, State.getBitsFrom,
    State.getBit_of_fail (s := { s with unp := u }) hfail]
  rfl

theorem exec_getbits_of_fail {bs : List Bool} {s : State} {u u' : Unpacker} {marker : Bool} {n : Nat} (hn : bs.length < n)
    (h : Unpacker.reads bs s.unp = some u) (hfail : u.getBit = .fail marker u') :
    exec (.getbits n) s = .next (State.returning .fail (s.afterFailedRead marker u')) := by
  simp only [exec, execGetbits, State.getBits_of_fail hn h hfail]
  rfl

/-- Settles O26: the bits delivered are taken in, then the read ends or fails. -/
theorem getbitsReadsAValue : Obligations.GetbitsReadsAValue := by
  unfold Obligations.GetbitsReadsAValue
  intro s bs u h
  have hlen (n : Nat) : bs.length < bs.length + n + 1 := by omega
  refine ⟨?_, fun n u' hfail => exec_getbits_of_fail (hlen n) h hfail, fun n u' hfail => exec_getbits_of_fail (hlen n) h hfail⟩
  simp only [exec, execGetbits, State.getBits_of_reads h]
  rfl

/-! ## RECVVAL -/

theorem foldl_msbBits (v n a : Nat) :
    (msbBits v n).foldl (fun v b => 2 * v + b.toNat) a = a * 2 ^ n + v % 2 ^ n := by
  induction n generalizing a with
  | zero => simp [msbBits, Nat.mod_one]
  | succ n ih =>
    rw [msbBits_succ, List.foldl_cons, ih, Nat.mod_pow_succ, Nat.toNat_testBit]
    ring

/-- Reading a field back gives the number written (R64, R159). -/
theorem bitsValue_msbBits {v n : Nat} (h : v < 2 ^ n) : bitsValue (msbBits v n) = v := by
  rw [bitsValue, foldl_msbBits, Nat.zero_mul, Nat.zero_add, Nat.mod_eq_of_lt h]

/-- RECVVAL reads the field of a value back (R193). -/
theorem State.recvVal_of_reads {s : State} {v : Int} {c : Nat} {u : Unpacker} (hc : IsCategory v c)
    (h : Unpacker.reads (msbBits (magField v c).toNat c) s.unp = some u) : s.recvVal c = (.ok v, { s with unp := u }) := by
  have hget := State.getBits_of_reads h
  obtain ⟨b, hb, hmag, -⟩ := hc.magField_eq
  have hback := hc.unmagField_magField
  rw [hmag, Int.toNat_natCast] at hget hback
  rw [msbBits_length, bitsValue_msbBits hb] at hget
  simp only [State.recvVal, hget, hback]

theorem State.recvVal_of_fail {bs : List Bool} {s : State} {u u' : Unpacker} {marker : Bool} {c : Nat} (hc : bs.length < c)
    (h : Unpacker.reads bs s.unp = some u) (hfail : u.getBit = .fail marker u') :
    s.recvVal c = (.error u'.failure, s.afterFailedRead marker u') := by
  simp only [State.recvVal, State.getBits_of_fail hc h hfail]
  rfl

/-- Settles O30, by the two ways the read can go. -/
theorem recvvalReadsTheValue : Obligations.RecvvalReadsTheValue := by
  unfold Obligations.RecvvalReadsTheValue
  intro s
  constructor
  · intro v c u hlt hlow h
    simp only [exec, execRecvval, State.recvVal_of_reads ⟨hlt, hlow⟩ h]
    rfl
  · intro bs u u' n marker h hfail
    have hlen : bs.length < bs.length + n + 1 := by omega
    simp only [exec, execRecvval, State.recvVal_of_fail hlen h hfail]
    rfl

/-! ## Errors of reads -/

/-- The `aux` of a failed read is the marker, which is 0 where there is none (R191, R263). -/
theorem State.raiseRead_failure (s : State) (ch : Chan) :
    s.raiseRead s.unp.failure ch = s.afterBlockError s.unp.failure ch s.unp.marker := by
  have hkind : s.unp.failure.kind = .decode := s.bitCause_kind
  have haux : s.readAux s.unp.failure = s.unp.marker := by
    unfold State.readAux Unpacker.failure
    by_cases h : s.unp.marker = 0
    · rw [if_pos h, if_neg (by decide), h]
    · rw [if_neg h, if_pos rfl]
  rw [State.raiseRead, s.raise_recoverable _ _ (.inr hkind), haux]

/-! ## The items of a block -/

theorem State.dcItem_of_reads {s : State} {v : Int} {c : Nat} {u : Unpacker} (ch : Chan) (hc : IsCategory v c)
    (h : Unpacker.reads (msbBits (magField v c).toNat c) s.unp = some u) :
    s.dcItem ch c = (true, { s with
      unp := u
      pred := s.pred.set ch (s.pred[ch] + BitVec.ofInt 32 v)
      coef := s.coef.set ch (s.coef[ch].set 0 (s.pred[ch] + BitVec.ofInt 32 v)) }) := by
  simp only [State.dcItem, State.recvVal_of_reads hc h]
  rfl

theorem State.dcItem_of_fail {bs : List Bool} {s : State} {u u' : Unpacker} {marker : Bool} {c : Nat} (ch : Chan)
    (hc : bs.length < c) (h : Unpacker.reads bs s.unp = some u) (hfail : u.getBit = .fail marker u') :
    s.dcItem ch c
      = (false, (s.afterFailedRead marker u').afterBlockError u'.failure ch u'.marker) := by
  simp only [State.dcItem, State.recvVal_of_fail hc h hfail]
  exact congrArg _ ((s.afterFailedRead marker u').raiseRead_failure ch)

theorem State.runSizeItem_of_reads {s : State} {v : Int} {r c k : Nat} {u : Unpacker} (ch : Chan) (sym : Byte)
    (hk : k + r ≤ 63) (hc : IsCategory v c) (h : Unpacker.reads (msbBits (magField v c).toNat c) s.unp = some u) :
    s.runSizeItem ch sym r c k = (true, k + r + 1, { s with
      unp := u
      coef := s.coef.set ch (s.coef[ch].set (zz (k + r)) (BitVec.ofInt 32 v)) }) := by
  simp only [State.runSizeItem, if_neg (Nat.not_lt.mpr hk), State.recvVal_of_reads hc h]
  rfl

theorem State.runSizeItem_of_fail {bs : List Bool} {s : State} {u u' : Unpacker} {marker : Bool} {r c k : Nat} (ch : Chan)
    (sym : Byte) (hk : k + r ≤ 63) (hc : bs.length < c) (h : Unpacker.reads bs s.unp = some u)
    (hfail : u.getBit = .fail marker u') :
    s.runSizeItem ch sym r c k
      = (false, k + r, (s.afterFailedRead marker u').afterBlockError u'.failure ch u'.marker) := by
  simp only [State.runSizeItem, if_neg (Nat.not_lt.mpr hk), State.recvVal_of_fail hc h hfail]
  rw [show (s.afterFailedRead marker u').raiseRead u'.failure ch = _ from
    (s.afterFailedRead marker u').raiseRead_failure ch]
  rfl

/-- Past position 63 nothing is read (R199). -/
theorem State.runSizeItem_of_overflow {r k : Nat} (s : State) (ch : Chan) (sym : Byte) (c : Nat) (hk : 63 < k + r) :
    s.runSizeItem ch sym r c k = (false, k + r, s.afterBlockError .indexOverflow ch sym) := by
  rw [State.runSizeItem, if_pos hk, s.raise_recoverable _ _ (.inr rfl)]

/-! ## Symbols run on their own -/

theorem toNat_append_nibbles (r c : BitVec 4) : r ++ c = BitVec.ofNat 8 (16 * r.toNat + c.toNat) := by
  revert r c
  decide

/-- Settles O39, by the category and the read. -/
theorem dccatAddsTheDifference : Obligations.DccatAddsTheDifference := by
  unfold Obligations.DccatAddsTheDifference
  intro s c
  refine ⟨?_, ?_, ?_⟩
  · intro v u hle hlt hlow h
    have hcat : IsCategory v c.toNat := ⟨hlt, hlow.imp_left fun h0 => by rw [h0]; rfl⟩
    simp only [exec, execDccat, if_neg (Nat.not_lt.mpr hle), State.dcItem_of_reads s.latch.ch hcat h]
    rfl
  · intro bs u u' marker hle hlen h hfail
    simp only [exec, execDccat, if_neg (Nat.not_lt.mpr hle), State.dcItem_of_fail s.latch.ch hlen h hfail]
    rfl
  · intro hgt
    simp only [exec, execDccat, if_pos hgt, s.raise_recoverable (c := .badCategory) _ _ (.inr rfl)]
    rfl

/-- Settles O40, by the position and the read. -/
theorem acrsStoresTheCoefficient : Obligations.AcrsStoresTheCoefficient := by
  unfold Obligations.AcrsStoresTheCoefficient
  intro s r c
  refine ⟨?_, ?_, ?_⟩
  · intro v u hk hlt hlow h
    have hcat : IsCategory v c.toNat := ⟨hlt, hlow.imp_left fun h0 => by rw [h0]; rfl⟩
    simp only [exec, execAcrs, State.runSizeItem_of_reads s.latch.ch _ hk hcat h]
    rfl
  · intro bs u u' marker hk hlen h hfail
    simp only [exec, execAcrs, State.runSizeItem_of_fail s.latch.ch _ hk hlen h hfail]
    rfl
  · intro hk
    simp only [exec, execAcrs, s.runSizeItem_of_overflow s.latch.ch _ _ hk, toNat_append_nibbles]
    rfl

/-- Settles O41: EOB and ZRL are an update of the position; ACSKIP is a coefficient of category 0, whose field has no bit. -/
theorem bitlessSymbolsMoveThePosition : Obligations.BitlessSymbolsMoveThePosition := by
  unfold Obligations.BitlessSymbolsMoveThePosition
  intro s
  refine ⟨rfl, rfl, fun r => ⟨?_, ?_⟩⟩
  · intro hk
    have hcat : IsCategory 0 0 := ⟨by decide, .inl rfl⟩
    simp only [exec, execAcskip, State.runSizeItem_of_reads (u := s.unp) s.latch.ch _ hk hcat rfl]
    rfl
  · intro hk
    simp only [exec, execAcskip, s.runSizeItem_of_overflow s.latch.ch _ _ hk, toNat_append_nibbles]
    rfl

end Sys2Proof.Machine
end

section
/-! PROOFS. Symbols in Huffman tables: the lookup and the code written (R173, R175), and the code read (R190, R194). The codes of a
valid, well-formed table lie side by side, so none begins with another, and the bits of a code are read as its symbol. -/

namespace Sys2Proof.Machine

open Sys2Proof

/-! ## HLOOKUP and EMITSYM -/

/-- The lookup finds the first entry with the symbol (R173). -/
theorem HuffSlot.lookup_of_first {h : HuffSlot} {sym : Byte} {j : Nat} {e : HuffEntry} (he : h.entries[j]? = some e)
    (hsym : e.sym = sym) (hfirst : ∀ j' e', j' < j → h.entries[j']? = some e' → e'.sym ≠ sym) : h.lookup sym = some e := by
  obtain ⟨hj, rfl⟩ := List.getElem?_eq_some_iff.mp he
  refine List.find?_eq_some_iff_getElem.mpr ⟨beq_iff_eq.mpr hsym, j, hj, rfl, fun i hi => ?_⟩
  simpa using hfirst i _ hi (List.getElem?_eq_getElem (by omega))

theorem HuffSlot.lookup_of_absent {h : HuffSlot} {sym : Byte} (habsent : ∀ e ∈ h.entries, e.sym ≠ sym) :
    h.lookup sym = none :=
  List.find?_eq_none.mpr fun e he => by simpa using habsent e he

/-- What is found is an entry with the symbol. -/
theorem HuffSlot.lookup_some {h : HuffSlot} {sym : Byte} {e : HuffEntry} (hl : h.lookup sym = some e) :
    e ∈ h.entries ∧ e.sym = sym :=
  ⟨List.mem_of_find?_eq_some hl, by simpa using List.find?_some hl⟩

/-- Settles O31, by the first entry with the symbol. -/
theorem hlookupReturnsTheFirstEntry : Obligations.HlookupReturnsTheFirstEntry := by
  unfold Obligations.HlookupReturnsTheFirstEntry
  intro s cls t sym
  constructor
  · intro j e he hsym hfirst
    simp only [exec, execHlookup, HuffSlot.lookup_of_first he hsym hfirst]
    rfl
  · intro habsent
    simp only [exec, execHlookup, HuffSlot.lookup_of_absent habsent]
    rfl

theorem State.emitSym_of_lookup {s : State} {h : HuffSlot} {sym : Byte} {e : HuffEntry} (hl : h.lookup sym = some e) :
    s.emitSym h sym = some (s.putBits e.code.toNat e.len.toNat) := by
  simp only [State.emitSym, hl]

theorem State.emitSym_of_none {s : State} {h : HuffSlot} {sym : Byte} (hl : h.lookup sym = none) :
    s.emitSym h sym = none := by
  simp only [State.emitSym, hl]

/-- Settles O32: the code of the first entry goes to the Packer, or nothing does. -/
theorem emitsymWritesTheCode : Obligations.EmitsymWritesTheCode := by
  unfold Obligations.EmitsymWritesTheCode
  intro s cls t sym hwf
  constructor
  · intro j e he hsym hfirst
    refine ⟨s.packer.putBits e.code.toNat e.len.toNat, ?_, Packer.putBits_wf _ _ hwf, Packer.putBits_bits _ _ hwf⟩
    simp only [exec, execEmitsym, State.emitSym_of_lookup (HuffSlot.lookup_of_first he hsym hfirst)]
    rfl
  · intro habsent
    simp only [exec, execEmitsym, State.emitSym_of_none (HuffSlot.lookup_of_absent habsent)]
    rfl

/-! ## Bits of codes -/

/-- The last bit of a field is its lowest (R64). -/
theorem msbBits_succ_last (v n : Nat) : msbBits v (n + 1) = msbBits (v / 2) n ++ [v.testBit 0] := by
  simp only [msbBits, List.range_succ, List.map_append, List.map_cons, List.map_nil, Nat.add_one_sub_one, Nat.sub_self]
  congr 1
  refine List.map_congr_left fun i hi => ?_
  have hi' := List.mem_range.mp hi
  rw [← Nat.testBit_succ, Nat.succ_eq_add_one, show n - 1 - i + 1 = n - i by omega]

theorem bitsValue_concat (bs : List Bool) (b : Bool) : bitsValue (bs ++ [b]) = 2 * bitsValue bs + b.toNat := by
  simp [bitsValue]

/-- Bits are the field of the number they are (R159). -/
theorem msbBits_bitsValue (bs : List Bool) : msbBits (bitsValue bs) bs.length = bs := by
  induction bs using List.reverseRecOn with
  | nil => rfl
  | append_singleton bs b ih =>
    have hdiv : (2 * bitsValue bs + b.toNat) / 2 = bitsValue bs := by cases b <;> simp; omega
    have hlow : (2 * bitsValue bs + b.toNat).testBit 0 = b := by cases b <;> simp
    rw [List.length_append, List.length_singleton, bitsValue_concat, msbBits_succ_last, hdiv, hlow, ih]

/-- The first bits of a field are its high part. -/
theorem msbBits_take (v : Nat) {n k : Nat} (h : k ≤ n) : (msbBits v n).take k = msbBits (v / 2 ^ (n - k)) k := by
  rw [msbBits, ← List.map_take, List.take_range, Nat.min_eq_left h, msbBits]
  refine List.map_congr_left fun i hi => ?_
  have hi' := List.mem_range.mp hi
  rw [Nat.testBit_div_two_pow, show k - 1 - i + (n - k) = n - 1 - i by omega]

@[simp] theorem HuffEntry.bits_length (e : HuffEntry) : e.bits.length = e.len.toNat := msbBits_length _ _

/-- The codes of a table in use (R35 to R37): of 1 to 16 bits, fitting their lengths, their spans side by side. -/
def HuffSlot.HasCodes (h : HuffSlot) : Prop :=
  (∀ e ∈ h.entries, 1 ≤ e.len.toNat ∧ e.len.toNat ≤ 16 ∧ e.code.toNat < 2 ^ e.len.toNat) ∧
  h.entries.Pairwise (fun a b => a.spanHi ≤ b.spanLo)

theorem HuffSlot.wf.hasCodes {h : HuffSlot} (hwf : h.wf) (hvalid : h.valid = true) : h.HasCodes := by
  obtain ⟨-, -, -, -, hbounds, hspans⟩ := hwf hvalid
  exact ⟨hbounds, hspans⟩

/-- The bits of an entry are given bits exactly when its length and code are theirs. -/
theorem HuffEntry.bits_eq_iff {e : HuffEntry} (hcode : e.code.toNat < 2 ^ e.len.toNat) (bs : List Bool) :
    e.bits = bs ↔ e.len.toNat = bs.length ∧ e.code.toNat = bitsValue bs := by
  constructor
  · rintro rfl
    exact ⟨e.bits_length.symm, (bitsValue_msbBits hcode).symm⟩
  · rintro ⟨hlen, hval⟩
    rw [HuffEntry.bits, hlen, hval, msbBits_bitsValue]

/-- Bits that begin with other bits make a code that begins with the other code (R134). -/
theorem HuffEntry.prefixes_of_bits_prefix {a b : HuffEntry} (ha : a.code.toNat < 2 ^ a.len.toNat)
    (hb : b.code.toNat < 2 ^ b.len.toNat) (h : a.bits <+: b.bits) : a.prefixes b := by
  have hlen : a.len.toNat ≤ b.len.toNat := by simpa using h.length_le
  refine ⟨hlen, ?_⟩
  have htake : a.bits = msbBits (b.code.toNat / 2 ^ (b.len.toNat - a.len.toNat)) a.len.toNat := by
    rw [← msbBits_take _ hlen, ← HuffEntry.bits, ← a.bits_length]
    exact List.prefix_iff_eq_take.mp h
  have hhigh : b.code.toNat / 2 ^ (b.len.toNat - a.len.toNat) < 2 ^ a.len.toNat := by
    rw [Nat.div_lt_iff_lt_mul (Nat.two_pow_pos _), ← Nat.pow_add, Nat.add_sub_cancel' hlen]
    exact hb
  rw [← bitsValue_msbBits hhigh, ← htake, HuffEntry.bits, bitsValue_msbBits ha]

/-- No code of a table begins with another's (R134). -/
theorem HuffSlot.HasCodes.eq_of_bits_prefix {h : HuffSlot} (hcodes : h.HasCodes) {a b : HuffEntry} (ha : a ∈ h.entries)
    (hb : b ∈ h.entries) (hpre : a.bits <+: b.bits) : a = b := by
  obtain ⟨hbounds, hspans⟩ := hcodes
  have hfree : h.entries.Pairwise (fun a b => ¬ a.prefixes b ∧ ¬ b.prefixes a) :=
    hspans.imp_of_mem fun {a b} ha hb hspan =>
      have ⟨_, hamax, _⟩ := hbounds a ha
      have ⟨_, hbmax, _⟩ := hbounds b hb
      HuffEntry.not_prefixes_of_spans hamax hbmax hspan
  have hsame : ∀ a ∈ h.entries, ∀ b ∈ h.entries, a.prefixes b → a = b :=
    List.Pairwise.forall_of_forall_of_flip (R := fun a b => a.prefixes b → a = b) (fun _ _ _ => rfl)
      (hfree.imp fun ⟨hab, _⟩ hpre => absurd hpre hab) (hfree.imp fun ⟨_, hba⟩ hpre => absurd hpre hba)
  obtain ⟨-, -, hacode⟩ := hbounds a ha
  obtain ⟨-, -, hbcode⟩ := hbounds b hb
  exact hsame a ha b hb (HuffEntry.prefixes_of_bits_prefix hacode hbcode hpre)

/-! ## HDECODE -/

/-- No entry matches bits that are no entry's (R190). -/
theorem HuffSlot.HasCodes.matching_eq_none {h : HuffSlot} (hcodes : h.HasCodes) {bs : List Bool}
    (hno : ∀ e ∈ h.entries, e.bits ≠ bs) : h.matching bs.length (bitsValue bs) = none := by
  refine List.find?_eq_none.mpr fun e he hmatch => hno e he ?_
  obtain ⟨-, -, hcode⟩ := hcodes.1 e he
  exact (HuffEntry.bits_eq_iff hcode bs).mpr (by simpa using hmatch)

/-- An entry is matched by its bits (R190). -/
theorem HuffSlot.HasCodes.matching_bits {h : HuffSlot} (hcodes : h.HasCodes) {e : HuffEntry} (he : e ∈ h.entries) :
    h.matching e.bits.length (bitsValue e.bits) = some e := by
  cases hm : h.matching e.bits.length (bitsValue e.bits) with
  | none =>
    obtain ⟨-, -, hcode⟩ := hcodes.1 e he
    have hmiss := List.find?_eq_none.mp hm e he
    obtain ⟨hlen, hval⟩ := (HuffEntry.bits_eq_iff hcode _).mp rfl
    simp [← hlen, ← hval] at hmiss
  | some e' =>
    have he' : e' ∈ h.entries := List.mem_of_find?_eq_some hm
    obtain ⟨-, -, hcode⟩ := hcodes.1 e' he'
    have hbits : e'.bits = e.bits := (HuffEntry.bits_eq_iff hcode _).mpr (by simpa using List.find?_some hm)
    rw [hcodes.eq_of_bits_prefix he' he (hbits ▸ List.prefix_refl _)]

/-- Behind the bits `pre`, HDECODE reads on through bits that complete no entry's code (R190). -/
theorem State.hdecodeFrom_of_reads {h : HuffSlot} (hcodes : h.HasCodes) (n : Nat) {pre bs : List Bool} {s : State}
    {u : Unpacker} (hlen : pre.length + bs.length + n = 16) (hno : ∀ e ∈ h.entries, ¬ e.bits <+: pre ++ bs)
    (hreads : Unpacker.reads bs s.unp = some u) :
    State.hdecodeFrom h (bs.length + n) (bitsValue pre) s = State.hdecodeFrom h n (bitsValue (pre ++ bs)) { s with unp := u } := by
  induction bs generalizing pre s with
  | nil =>
    obtain rfl := Option.some.inj hreads
    rw [List.length_nil, Nat.zero_add, List.append_nil]
  | cons b bs ih =>
    obtain ⟨u', hb, hrest⟩ := Unpacker.reads_cons_some hreads
    rw [List.length_cons] at hlen
    have hsplit : pre ++ b :: bs = pre ++ [b] ++ bs := by simp
    rw [hsplit] at hno ⊢
    have hnone : h.matching (Config.maxLen - (bs.length + n)) (2 * bitsValue pre + b.toNat) = none := by
      rw [← bitsValue_concat, show Config.maxLen - (bs.length + n) = (pre ++ [b]).length by
        simp only [Config.maxLen, List.length_append, List.length_singleton]; omega]
      exact hcodes.matching_eq_none fun e he heq => hno e he (heq ▸ List.prefix_append _ _)
    rw [List.length_cons, Nat.add_right_comm, State.hdecodeFrom, State.getBit_of_bit hb]
    simp only [hnone]
    rw [← bitsValue_concat]
    exact ih (s := { s with unp := u' }) (by simp; omega) hno hrest

/-- HDECODE reads through bits that complete no entry's code (R190). -/
theorem State.hdecode_of_reads {h : HuffSlot} (hcodes : h.HasCodes) {bs : List Bool} {s : State} {u : Unpacker}
    (hlen : bs.length ≤ 16) (hno : ∀ e ∈ h.entries, ¬ e.bits <+: bs) (hreads : Unpacker.reads bs s.unp = some u) :
    s.hdecode h = State.hdecodeFrom h (16 - bs.length) (bitsValue bs) { s with unp := u } := by
  have hfrom := State.hdecodeFrom_of_reads hcodes (16 - bs.length) (pre := []) (s := s) (by simp; omega) hno hreads
  rwa [Nat.add_sub_cancel' hlen] at hfrom

/-- HDECODE reads the bits of an entry's code as its symbol (R190, R194). -/
theorem State.hdecode_of_code {h : HuffSlot} (hcodes : h.HasCodes) {e : HuffEntry} (he : e ∈ h.entries) {s : State}
    {u : Unpacker} (hreads : Unpacker.reads e.bits s.unp = some u) : s.hdecode h = (.ok e.sym, { s with unp := u }) := by
  obtain ⟨hmin, hmax, -⟩ := hcodes.1 e he
  obtain ⟨bs, b, hbits⟩ : ∃ bs b, e.bits = bs ++ [b] :=
    ⟨_, _, (List.dropLast_append_getLast (List.length_pos_iff.mp (by rw [e.bits_length]; exact hmin))).symm⟩
  have hlen : bs.length + 1 = e.len.toNat := by rw [← e.bits_length, hbits, List.length_append, List.length_singleton]
  have hno : ∀ e' ∈ h.entries, ¬ e'.bits <+: bs := by
    intro e' he' hpre
    have heq := hcodes.eq_of_bits_prefix he' he (hpre.trans ⟨[b], hbits.symm⟩)
    have hle := hpre.length_le
    rw [heq, e.bits_length] at hle
    omega
  rw [hbits, Unpacker.reads_append] at hreads
  obtain ⟨u', hinit, hlast⟩ := Option.bind_eq_some_iff.mp hreads
  obtain ⟨u'', hb, hdone⟩ := Unpacker.reads_cons_some hlast
  obtain rfl := Option.some.inj hdone
  have hmatch := hcodes.matching_bits he
  rw [hbits, bitsValue_concat] at hmatch
  rw [State.hdecode_of_reads hcodes (by omega) hno hinit, show 16 - bs.length = 15 - bs.length + 1 by omega,
    State.hdecodeFrom, State.getBit_of_bit (s := { s with unp := u' }) hb]
  simp only [show Config.maxLen - (15 - bs.length) = (bs ++ [b]).length by
    simp only [Config.maxLen, List.length_append, List.length_singleton]; omega, hmatch]

/-- HDECODE fails where a bit fails (R191). -/
theorem State.hdecodeFrom_of_fail {s : State} {marker : Bool} {u : Unpacker} (h : HuffSlot) (n cand : Nat)
    (hfail : s.unp.getBit = .fail marker u) :
    State.hdecodeFrom h (n + 1) cand s = (.error u.failure, s.afterFailedRead marker u) := by
  rw [State.hdecodeFrom, State.getBit_of_fail hfail]
  rfl

theorem exec_hdecode_of_ok {s s1 : State} {cls : HuffClass} {t : SlotId} {sym : Byte}
    (h : s.hdecode (s.huff cls t) = (.ok sym, s1)) : exec (.hdecode cls t) s = .next (s1.returning (.symbol sym)) := by
  simp only [exec, execHdecode, h]
  rfl

theorem exec_hdecode_of_error {s s1 : State} {cls : HuffClass} {t : SlotId} {c : Cause}
    (h : s.hdecode (s.huff cls t) = (.error c, s1)) : exec (.hdecode cls t) s = .next (s1.returning (.failCause c)) := by
  simp only [exec, execHdecode, h]
  rfl

/-- Settles O33: a code is matched at its last bit and not before; other bits are read through, up to sixteen. -/
theorem hdecodeReadsOneCode : Obligations.HdecodeReadsOneCode := by
  unfold Obligations.HdecodeReadsOneCode
  intro s cls t hwf hvalid
  have hcodes := hwf.hasCodes hvalid
  refine ⟨?_, ?_, ?_⟩
  · intro e u he hreads
    exact exec_hdecode_of_ok (State.hdecode_of_code hcodes he hreads)
  · intro bs u hlen hno hreads
    have hdecode := State.hdecode_of_reads hcodes hlen.le hno hreads
    rw [hlen, Nat.sub_self] at hdecode
    exact exec_hdecode_of_error hdecode
  · intro bs u u' marker hlen hno hreads hfail
    have hdecode := State.hdecode_of_reads hcodes hlen.le hno hreads
    rw [show 16 - bs.length = 15 - bs.length + 1 by omega,
      State.hdecodeFrom_of_fail (s := { s with unp := u }) _ _ _ hfail] at hdecode
    exact exec_hdecode_of_error hdecode

/-! ## An ended segment -/

/-- A block whose DC symbol cannot be read is zeros, with the error of the read (R201). -/
theorem State.decodeBlock_of_fail {s : State} {marker : Bool} {u : Unpacker} (ch : Chan)
    (hfail : s.unp.getBit = .fail marker u) :
    s.decodeBlock ch = (false, ((s.setBlock ch zeroBlock).afterFailedRead marker u).afterBlockError u.failure ch u.marker) := by
  have hdecode := State.hdecodeFrom_of_fail (s := s.setBlock ch zeroBlock) (s.dcTable ch) 15 0 hfail
  simp only [State.decodeBlock, State.hdecode, show Config.maxLen = 15 + 1 from rfl, hdecode]
  exact congrArg _ (((s.setBlock ch zeroBlock).afterFailedRead marker u).raiseRead_failure ch)

/-- Settles O27: every read begins with a GETBIT, which fails and changes nothing. -/
theorem endedSegmentDeliversNothing : Obligations.EndedSegmentDeliversNothing := by
  unfold Obligations.EndedSegmentDeliversNothing
  intro s hseg
  have hfail := Unpacker.getBit_of_ended hseg
  refine ⟨exec_getbit_of_fail hfail, ?_, ?_, ?_, ?_⟩
  · intro n
    exact exec_getbits_of_fail (bs := []) (Nat.succ_pos n) rfl hfail
  · intro cls t
    exact exec_hdecode_of_error (State.hdecodeFrom_of_fail _ 15 0 hfail)
  · intro c
    simp only [exec, execRecvval, State.recvVal_of_fail (bs := []) (Nat.succ_pos c) rfl hfail]
    rfl
  · intro ch
    simp only [exec, execDecodeBlock, State.decodeBlock_of_fail ch hfail]
    rfl

end Sys2Proof.Machine
end

section
/-! PROOFS. ENCODE_BLOCK (R176 to R183): behind its DC item the AC loop writes the items of the block one after another, and stops at
the first that cannot be written. -/

namespace Sys2Proof.Machine

open Sys2Proof

/-! ## Packers that grow -/

/-- `q` holds what `p` holds, and perhaps more behind it: bytes and accepted bits stay (R61). -/
def Packer.Extends (p q : Packer) : Prop := p.obuf <+: q.obuf ∧ (p.wf → q.wf ∧ p.bits <+: q.bits)

theorem Packer.Extends.refl (p : Packer) : p.Extends p := ⟨List.prefix_refl _, fun h => ⟨h, List.prefix_refl _⟩⟩

theorem Packer.Extends.trans {p q r : Packer} (h : p.Extends q) (h' : q.Extends r) : p.Extends r := by
  obtain ⟨hobuf, hbits⟩ := h
  obtain ⟨hobuf', hbits'⟩ := h'
  refine ⟨hobuf.trans hobuf', fun hwf => ?_⟩
  obtain ⟨hq, hpq⟩ := hbits hwf
  obtain ⟨hr, hqr⟩ := hbits' hq
  exact ⟨hr, hpq.trans hqr⟩

theorem Packer.putBits_extends (v n : Nat) (p : Packer) : p.Extends (p.putBits v n) :=
  ⟨Packer.putBits_grows v n p, fun h => ⟨Packer.putBits_wf v n h, Packer.putBits_bits v n h ▸ List.prefix_append _ _⟩⟩

/-! ## Writing items -/

/-- The magnitude field of an item as PUTBITS takes it: value and length (R180). -/
def AcItem.field : AcItem → Nat × Nat
  | .zrl => (0, 0)
  | .coef _ v => ((magField v (categoryOf v)).toNat, categoryOf v)
  | .eob => (0, 0)

theorem AcItem.magnitude_eq (it : AcItem) : it.magnitude = msbBits it.field.1 it.field.2 := by
  cases it <;> rfl

/-- Code and magnitude of a symbol go to the Packer (R175, R180). -/
def Packer.putCoded (e : HuffEntry) (f : Nat × Nat) (p : Packer) : Packer :=
  (p.putBits e.code.toNat e.len.toNat).putBits f.1 f.2

theorem Packer.putCoded_extends (e : HuffEntry) (f : Nat × Nat) (p : Packer) : p.Extends (p.putCoded e f) :=
  (Packer.putBits_extends _ _ p).trans (Packer.putBits_extends _ _ _)

theorem Packer.putCoded_wf (e : HuffEntry) (f : Nat × Nat) {p : Packer} (h : p.wf) : (p.putCoded e f).wf :=
  Packer.putBits_wf _ _ (Packer.putBits_wf _ _ h)

theorem Packer.putCoded_bits (e : HuffEntry) (f : Nat × Nat) {p : Packer} (h : p.wf) :
    (p.putCoded e f).bits = p.bits ++ e.bits ++ msbBits f.1 f.2 := by
  rw [Packer.putCoded, Packer.putBits_bits _ _ (Packer.putBits_wf _ _ h), Packer.putBits_bits _ _ h]
  rfl

/-- The entry of an item in a table. -/
def AcItem.entry (h : HuffSlot) (it : AcItem) : Option HuffEntry := it.symbol.bind h.lookup

theorem AcItem.bits_eq (h : HuffSlot) (it : AcItem) :
    it.bits h = (it.entry h).map (fun e => e.bits ++ msbBits it.field.1 it.field.2) := by
  unfold AcItem.bits AcItem.entry
  cases it.symbol with
  | none => rfl
  | some sym => rw [AcItem.magnitude_eq]; rfl

/-- Writes items until one has no entry: the Packer, and the item that failed. -/
def Packer.writeItems (h : HuffSlot) : List AcItem → Packer → Packer × Option AcItem
  | [], p => (p, none)
  | it :: its, p =>
    match it.entry h with
    | none => (p, some it)
    | some e => Packer.writeItems h its (p.putCoded e it.field)

theorem Packer.writeItems_extends (h : HuffSlot) (its : List AcItem) (p : Packer) : p.Extends (p.writeItems h its).1 := by
  induction its generalizing p with
  | nil => exact Packer.Extends.refl p
  | cons it its ih =>
    unfold Packer.writeItems
    split
    · exact Packer.Extends.refl p
    · exact (Packer.putCoded_extends _ _ p).trans (ih _)

/-- Items of which each has an entry are written in full (R183). -/
theorem Packer.writeItems_of_bits {h : HuffSlot} {its : List AcItem} {w : List Bool} (hw : itemsBits h its = some w)
    (rest : List AcItem) {p : Packer} (hwf : p.wf) :
    ∃ q : Packer, q.wf ∧ q.bits = p.bits ++ w ∧ p.writeItems h (its ++ rest) = q.writeItems h rest := by
  induction its generalizing p w with
  | nil =>
    obtain rfl := Option.some.inj hw
    exact ⟨p, hwf, (List.append_nil _).symm, rfl⟩
  | cons it its ih =>
    unfold itemsBits at hw
    rw [AcItem.bits_eq] at hw
    cases he : it.entry h with
    | none => rw [he] at hw; cases hw
    | some e =>
      rw [he] at hw
      obtain ⟨ws, hws, rfl⟩ := Option.map_eq_some_iff.mp hw
      obtain ⟨q, hq, hbits, hrest⟩ := ih hws (Packer.putCoded_wf e it.field hwf)
      refine ⟨q, hq, by rw [hbits, Packer.putCoded_bits e it.field hwf]; simp, ?_⟩
      simp only [List.cons_append, Packer.writeItems, he, hrest]

theorem Packer.writeItems_of_failing {h : HuffSlot} {it : AcItem} (hit : it.bits h = none) (its : List AcItem) (p : Packer) :
    p.writeItems h (it :: its) = (p, some it) := by
  rw [AcItem.bits_eq, Option.map_eq_none_iff] at hit
  simp only [Packer.writeItems, hit]

/-- Either all items are written or one of them fails. -/
theorem Packer.itemsBits_of_writeItems {h : HuffSlot} {its : List AcItem} {p : Packer} (hp : (p.writeItems h its).2 = none) :
    ∃ w, itemsBits h its = some w := by
  induction its generalizing p with
  | nil => exact ⟨[], rfl⟩
  | cons it its ih =>
    unfold Packer.writeItems at hp
    cases he : it.entry h with
    | none => rw [he] at hp; cases hp
    | some e =>
      rw [he] at hp
      obtain ⟨ws, hws⟩ := ih hp
      exact ⟨e.bits ++ msbBits it.field.1 it.field.2 ++ ws, by simp only [itemsBits, AcItem.bits_eq, he, hws, Option.map_some]⟩

theorem Packer.writeItems_append (h : HuffSlot) (its rest : List AcItem) (p : Packer) :
    p.writeItems h (its ++ rest) = match (p.writeItems h its).2 with
      | none => (p.writeItems h its).1.writeItems h rest
      | some it => ((p.writeItems h its).1, some it) := by
  induction its generalizing p with
  | nil => rfl
  | cons it its ih =>
    simp only [List.cons_append, Packer.writeItems]
    cases it.entry h with
    | none => rfl
    | some e => exact ih _

/-! ## The AC loop -/

/-- How a block ends whose items are written so far: well, or with the error of the item that failed (R177). -/
def State.afterItems (ch : Chan) (r : Packer × Option AcItem) (s : State) : Bool × State :=
  match r.2 with
  | none => (true, { s with packer := r.1 })
  | some it => (false, State.afterBlockError it.cause ch it.aux { s with packer := r.1 })

theorem AcItem.cause_kind (it : AcItem) : it.cause.kind = .encode ∧ it.cause ≠ .quantDivZero := by
  cases it with
  | zrl => exact ⟨rfl, by decide⟩
  | eob => exact ⟨rfl, by decide⟩
  | coef run v =>
    by_cases hv : 15 < categoryOf v <;> simp [AcItem.cause, hv, Cause.kind]

/-- A coefficient of a category above 15 has no entry (R180). -/
theorem AcItem.coef_entry_of_large (h : HuffSlot) (run : Nat) {v : Int} (hv : 15 < categoryOf v) :
    (AcItem.coef run v).entry h = none := by
  simp [AcItem.entry, AcItem.symbol, hv]

theorem AcItem.coef_entry (h : HuffSlot) (run : Nat) {v : Int} (hv : ¬ 15 < categoryOf v) :
    (AcItem.coef run v).entry h = h.lookup (BitVec.ofNat 8 (16 * run + categoryOf v)) := by
  simp [AcItem.entry, AcItem.symbol, hv]

theorem State.emitSym_eq_map (h : HuffSlot) (sym : Byte) (s : State) :
    s.emitSym h sym = (h.lookup sym).map (fun e => { s with packer := s.packer.putBits e.code.toNat e.len.toNat }) := by
  unfold State.emitSym
  cases h.lookup sym <;> rfl

/-- The ZRL loop writes that many ZRL items (R178, R179). -/
theorem State.emitZrls_eq (h : HuffSlot) (n : Nat) (s : State) :
    s.emitZrls h n = ((s.packer.writeItems h (List.replicate n .zrl)).2.isNone,
      { s with packer := (s.packer.writeItems h (List.replicate n .zrl)).1 }) := by
  induction n generalizing s with
  | zero => rfl
  | succ n ih =>
    have hentry : AcItem.zrl.entry h = h.lookup 0xF0 := rfl
    simp only [State.emitZrls, List.replicate_succ, Packer.writeItems, State.emitSym_eq_map, hentry]
    cases h.lookup 0xF0 with
    | none => rfl
    | some e => exact ih _

theorem Packer.writeItems_zrls_fail {h : HuffSlot} {n : Nat} {p : Packer} {it : AcItem}
    (hit : (p.writeItems h (List.replicate n .zrl)).2 = some it) : it = .zrl := by
  induction n generalizing p with
  | zero => cases hit
  | succ n ih =>
    rw [List.replicate_succ, Packer.writeItems] at hit
    split at hit
    · exact (Option.some.inj hit).symm
    · exact ih hit

/-- The symbol byte of R180 from its nibbles. -/
theorem runSizeByte_eq {run c : Nat} (hrun : run < 16) (hc : c ≤ 15) : runSizeByte run c = BitVec.ofNat 8 (16 * run + c) := by
  rw [runSizeByte, toNat_append_nibbles]
  simp only [BitVec.toNat_ofNat]
  rw [Nat.mod_eq_of_lt (by omega), Nat.mod_eq_of_lt (by omega)]

/-- The non-zero coefficients of a list that begins at zigzag position `k`, with their positions. -/
def termsFrom : Nat → List Word → List (Nat × Int)
  | _, [] => []
  | k, v :: vs => if v = 0 then termsFrom (k + 1) vs else (k, v.toInt) :: termsFrom (k + 1) vs

/-- What the AC loop does with a non-zero coefficient `v` behind its ZRLs (R180): writes its item, and goes on with `vs`. -/
theorem State.encodeCoef_eq (ch : Chan) (h : HuffSlot) (vs : List Word) (run : Nat) (v : Word) (rest : List AcItem)
    (s : State) (ih : ∀ s' : State, State.encodeAc ch h vs 0 s' = s'.afterItems ch (s'.packer.writeItems h rest)) :
    (let c := categoryOf v.toInt
     if 15 < c then (false, s.raise .acCategoryTooLarge (some ch) 0)
     else
       let sym := runSizeByte (run % 16) c
       match s.emitSym h sym with
       | none => (false, s.raise .noAcSymbol (some ch) sym)
       | some s2 => State.encodeAc ch h vs 0 (s2.putBits (magField v.toInt c).toNat c))
    = s.afterItems ch (s.packer.writeItems h (.coef (run % 16) v.toInt :: rest)) := by
  dsimp only
  by_cases hlarge : 15 < categoryOf v.toInt
  · rw [if_pos hlarge]
    simp only [Packer.writeItems, AcItem.coef_entry_of_large h _ hlarge, State.afterItems, AcItem.cause, AcItem.aux,
      if_pos hlarge, s.raise_recoverable (c := .acCategoryTooLarge) ch 0 (.inl rfl)]
  · rw [if_neg hlarge, runSizeByte_eq (Nat.mod_lt _ (by decide)) (by omega), State.emitSym_eq_map]
    simp only [Packer.writeItems, AcItem.coef_entry h _ hlarge]
    cases h.lookup (BitVec.ofNat 8 (16 * (run % 16) + categoryOf v.toInt)) with
    | none =>
      simp only [Option.map_none, State.afterItems, AcItem.cause, AcItem.aux, if_neg hlarge,
        s.raise_recoverable (c := .noAcSymbol) ch _ (.inl rfl)]
    | some e => exact ih _

/-- The AC loop writes the items of the coefficients still to code (R178 to R181). -/
theorem State.encodeAc_eq (ch : Chan) (h : HuffSlot) (vs : List Word) (last run : Nat) (s : State)
    (hk : last + run + 1 + vs.length = 64) :
    State.encodeAc ch h vs run s = s.afterItems ch (s.packer.writeItems h (itemsFrom last (termsFrom (last + run + 1) vs))) := by
  induction vs generalizing last run s with
  | nil =>
    rw [List.length_nil] at hk
    rw [State.encodeAc, termsFrom, itemsFrom]
    by_cases hrun : run = 0
    · rw [if_pos hrun, if_pos (by omega)]
      rfl
    · rw [if_neg hrun, if_neg (by omega), State.emitSym_eq_map]
      have hentry : AcItem.eob.entry h = h.lookup 0x00 := rfl
      simp only [Packer.writeItems, hentry]
      cases h.lookup 0x00 with
      | none => exact congrArg (Prod.mk false) (s.raise_recoverable (c := .noEobSymbol) ch 0 (.inl rfl))
      | some e => rfl
  | cons v vs ih =>
    rw [List.length_cons] at hk
    rw [State.encodeAc, termsFrom]
    by_cases hv : v = 0
    · rw [if_pos hv, if_pos hv]
      exact ih last (run + 1) s (by omega)
    · rw [if_neg hv, if_neg hv, itemsFrom, show last + run + 1 - last - 1 = run by omega, Packer.writeItems_append,
        State.emitZrls_eq]
      generalize hz : s.packer.writeItems h (List.replicate (run / 16) .zrl) = z
      obtain ⟨p, _ | it⟩ := z
      · exact State.encodeCoef_eq ch h vs run v (itemsFrom (last + run + 1) (termsFrom (last + run + 1 + 1) vs))
          { s with packer := p } fun s' => ih (last + run + 1) 0 s' (by omega)
      · obtain rfl : it = .zrl := Packer.writeItems_zrls_fail (congrArg Prod.snd hz)
        exact congrArg (Prod.mk false) (State.raise_recoverable { s with packer := p } (c := .noZrlSymbol) ch 0 (.inl rfl))

/-- The coefficients of a run of zigzag positions, by position. -/
theorem termsFrom_range' (f : Nat → Word) (k n : Nat) :
    termsFrom k ((List.range' k n).map f)
      = ((List.range' k n).filter (fun k => decide (f k ≠ 0))).map (fun k => (k, (f k).toInt)) := by
  induction n generalizing k with
  | zero => rfl
  | succ n ih =>
    rw [List.range'_succ, List.map_cons, termsFrom, ih]
    by_cases hk : f k = 0
    · rw [if_pos hk, List.filter_cons_of_neg (by simpa using hk)]
    · rw [if_neg hk, List.filter_cons_of_pos (by simpa using hk), List.map_cons]

theorem range_map_succ : (List.range 63).map (fun i => i + 1) = List.range' 1 63 := by decide

theorem Block.acTerms_eq (b : Block) : Block.acTerms b = (List.range' 1 63).map (fun k => b[zz k]) := by
  rw [← range_map_succ, List.map_map]
  rfl

/-- The items of a block are those of its AC coefficients (R183). -/
theorem acItems_eq (b : Block) : acItems b = itemsFrom 0 (termsFrom 1 (Block.acTerms b)) := by
  rw [acItems, acPositions, range_map_succ, Block.acTerms_eq, termsFrom_range']

/-! ## ENCODE_BLOCK -/

section
variable (s : State) (ch : Chan)

/-- The difference a block codes (R176). -/
def State.dcDiff : Int := (s.coef[ch][(0 : Fin 64)]).toInt - (s.pred[ch]).toInt

/-- Without a symbol for the DC category nothing is written (R176). -/
theorem State.encodeBlock_of_absent {c : Nat} (hc : IsCategory (s.dcDiff ch) c)
    (hl : (s.dcTable ch).lookup (BitVec.ofNat 8 c) = none) :
    s.encodeBlock ch = (false, State.afterBlockError .noDcSymbol ch (BitVec.ofNat 8 c)
      { s with pred := s.pred.set ch s.coef[ch][(0 : Fin 64)] }) := by
  unfold State.encodeBlock
  dsimp only
  rw [← State.dcDiff, hc.categoryOf_eq, State.emitSym_of_none hl]
  exact congrArg (Prod.mk false) (State.raise_recoverable _ (c := .noDcSymbol) ch _ (.inl rfl))

/-- Behind its DC item a block writes its AC items (R176 to R181). -/
theorem State.encodeBlock_of_lookup {c : Nat} {d : HuffEntry} (hc : IsCategory (s.dcDiff ch) c)
    (hl : (s.dcTable ch).lookup (BitVec.ofNat 8 c) = some d) :
    s.encodeBlock ch = State.afterItems ch
      ((s.packer.putCoded d ((magField (s.dcDiff ch) c).toNat, c)).writeItems (s.acTable ch) (acItems s.coef[ch]))
      { s with pred := s.pred.set ch s.coef[ch][(0 : Fin 64)] } := by
  unfold State.encodeBlock
  dsimp only
  rw [← State.dcDiff, hc.categoryOf_eq, State.emitSym_of_lookup hl, acItems_eq]
  exact State.encodeAc_eq ch _ _ 0 0 _ (by simp [Block.acTerms])

/-- What ENCODE_BLOCK can do (R182): it writes its predictor, adds to the Packer, and ends well or with one EncodeError. -/
theorem State.encodeBlock_cases :
    ∃ p : Packer, s.packer.Extends p ∧
      (s.encodeBlock ch = (true, { s with packer := p, pred := s.pred.set ch s.coef[ch][(0 : Fin 64)] }) ∨
       ∃ (c : Cause) (aux : Byte), (c.kind = .encode ∧ c ≠ .quantDivZero) ∧
        s.encodeBlock ch = (false, State.afterBlockError c ch aux
          { s with packer := p, pred := s.pred.set ch s.coef[ch][(0 : Fin 64)] })) := by
  have hc := categoryOf_isCategory (s.dcDiff ch)
  cases hl : (s.dcTable ch).lookup (BitVec.ofNat 8 (categoryOf (s.dcDiff ch))) with
  | none =>
    exact ⟨s.packer, Packer.Extends.refl _, .inr ⟨_, _, ⟨rfl, by decide⟩, State.encodeBlock_of_absent s ch hc hl⟩⟩
  | some d =>
    have heq := State.encodeBlock_of_lookup s ch hc hl
    generalize hz : (s.packer.putCoded d ((magField (s.dcDiff ch) (categoryOf (s.dcDiff ch))).toNat,
      categoryOf (s.dcDiff ch))).writeItems (s.acTable ch) (acItems s.coef[ch]) = z at heq
    have hext : s.packer.Extends z.1 := (Packer.putCoded_extends _ _ _).trans (hz ▸ Packer.writeItems_extends _ _ _)
    obtain ⟨p, _ | it⟩ := z
    · exact ⟨p, hext, .inl heq⟩
    · exact ⟨p, hext, .inr ⟨it.cause, it.aux, it.cause_kind, heq⟩⟩

end

theorem exec_encodeBlock_of_true {s t : State} {ch : Chan} (h : s.encodeBlock ch = (true, t)) :
    exec (.encodeBlock ch) s = .next (t.returning .ok) := by
  simp only [exec, execEncodeBlock, h]
  rfl

theorem exec_encodeBlock_of_false {s t : State} {ch : Chan} (h : s.encodeBlock ch = (false, t)) :
    exec (.encodeBlock ch) s = .next (t.returning .fail) := by
  simp only [exec, execEncodeBlock, h]
  rfl

/-- Settles O34, by what ENCODE_BLOCK can do. -/
theorem encodeBlockEffect : Obligations.EncodeBlockEffect := by
  unfold Obligations.EncodeBlockEffect
  intro s ch
  constructor
  · obtain ⟨p, ⟨hobuf, hbits⟩, hok | ⟨c, aux, ⟨hkind, hquant⟩, hfail⟩⟩ := s.encodeBlock_cases ch
    · exact ⟨p, hobuf, hbits, .inl (exec_encodeBlock_of_true hok)⟩
    · exact ⟨p, hobuf, hbits, .inr ⟨c, aux, hkind, hquant, exec_encodeBlock_of_false hfail⟩⟩
  · intro c hlt hlow habsent
    exact exec_encodeBlock_of_false
      (State.encodeBlock_of_absent s ch (c := c) ⟨hlt, hlow⟩ (HuffSlot.lookup_of_absent habsent))

/-- A block without AC terms has no item but the EOB (R181, R183). -/
theorem acItems_of_zero {b : Block} (h : ∀ i : Fin 64, i ≠ 0 → b[i] = 0) : acItems b = [.eob] := by
  have hnone : acPositions b = [] := by
    refine List.filter_eq_nil_iff.mpr fun k hk => ?_
    have hzz : ∀ i < 63, zz (i + 1) ≠ 0 := by decide
    obtain ⟨i, hi, rfl⟩ := List.mem_map.mp hk
    simpa using h _ (hzz i (List.mem_range.mp hi))
  rw [acItems, hnone]
  rfl

/-- Settles O35: the items of the block are written one after another, up to the first that has no entry. -/
theorem encodeBlockWritesItsItems : Obligations.EncodeBlockWritesItsItems := by
  unfold Obligations.EncodeBlockWritesItsItems
  intro s ch c d hwf hlt hlow hl
  have heq := State.encodeBlock_of_lookup s ch (c := c) ⟨hlt, hlow⟩ hl
  have hdc := Packer.putCoded_wf d ((magField (s.dcDiff ch) c).toNat, c) hwf
  have hdcBits := Packer.putCoded_bits d ((magField (s.dcDiff ch) c).toNat, c) hwf
  refine ⟨?_, ?_, acItems_of_zero⟩
  · intro w hw
    obtain ⟨p, hp, hbits, hwrite⟩ := Packer.writeItems_of_bits hw [] hdc
    rw [List.append_nil] at hwrite
    rw [hwrite] at heq
    exact ⟨p, exec_encodeBlock_of_true heq, hp, by rw [hbits, hdcBits]; rfl⟩
  · intro before after it w hitems hw hit
    obtain ⟨p, hp, hbits, hwrite⟩ := Packer.writeItems_of_bits hw (it :: after) hdc
    rw [hitems, hwrite, Packer.writeItems_of_failing hit] at heq
    exact ⟨p, exec_encodeBlock_of_false heq, hp, by rw [hbits, hdcBits]; rfl⟩

end Sys2Proof.Machine
end

section
/-! PROOFS. DECODE_BLOCK (R195 to R202): what it can do, and that it does what its symbols do one by one. The symbols run on their
own keep channel and position in the model's latch (log entry 3), which no read and no error touches. -/

namespace Sys2Proof.Machine

open Sys2Proof

/-! ## What a read can do -/

/-- What GETBIT can find (R156): the segment ended, the data ended, a marker, or a data byte to deliver a bit of. -/
theorem Unpacker.getBit_cases (u : Unpacker) :
    u.getBit = .fail false { u with eoseg := true } ∨
    (∃ n : Byte, u.getBit = .fail true { u with marker := n, eoseg := true }) ∨
    (∃ b : Byte, u.ibuf[u.ipos]? = some b ∧ (u.ibit = 0 → b = 0xFF → u.ibuf[u.ipos + 1]? = some 0) ∧
      u.getBit = u.deliver b) := by
  by_cases hseg : u.eoseg = true
  · left
    rw [Unpacker.getBit_of_ended hseg]
    obtain ⟨ibuf, ipos, ibit, eoseg, marker⟩ := u
    obtain rfl : eoseg = true := hseg
    rfl
  rw [Bool.not_eq_true] at hseg
  cases hb : u.ibuf[u.ipos]? with
  | none => exact .inl (Unpacker.getBit_of_exhausted hseg (List.getElem?_eq_none_iff.mp hb))
  | some b =>
    by_cases hstart : b = 0xFF ∧ u.ibit = 0
    · obtain ⟨rfl, hbit⟩ := hstart
      cases hn : u.ibuf[u.ipos + 1]? with
      | none => exact .inl (Unpacker.getBit_of_trailing hseg hb hbit hn)
      | some n =>
        by_cases hzero : n = 0
        · subst hzero
          exact .inr (.inr ⟨_, rfl, fun _ _ => rfl, Unpacker.getBit_of_data hseg hb fun _ _ => hn⟩)
        · exact .inr (.inl ⟨n, Unpacker.getBit_of_marker hseg hb hbit hn hzero⟩)
    · exact .inr (.inr ⟨b, rfl, fun hbit hff => absurd ⟨hff, hbit⟩ hstart,
        Unpacker.getBit_of_data hseg hb fun hff hbit => absurd ⟨hff, hbit⟩ hstart⟩)

/-- The Unpacker behind a delivered bit (R156, R158). -/
def Unpacker.advance (b : Byte) (u : Unpacker) : Unpacker :=
  if u.ibit = 7 then { u with ibit := 0, ipos := u.ipos + (if b = 0xFF then 2 else 1) } else { u with ibit := u.ibit + 1 }

theorem Unpacker.deliver_eq (b : Byte) (u : Unpacker) : u.deliver b = .bit (b.getLsbD (7 - u.ibit.val)) (u.advance b) := rfl

@[simp] theorem Unpacker.advance_ibuf (b : Byte) (u : Unpacker) : (u.advance b).ibuf = u.ibuf := by
  unfold Unpacker.advance; split <;> rfl
@[simp] theorem Unpacker.advance_marker (b : Byte) (u : Unpacker) : (u.advance b).marker = u.marker := by
  unfold Unpacker.advance; split <;> rfl
@[simp] theorem Unpacker.advance_eoseg (b : Byte) (u : Unpacker) : (u.advance b).eoseg = u.eoseg := by
  unfold Unpacker.advance; split <;> rfl

theorem Unpacker.advance_wf {b : Byte} {u : Unpacker} (hb : u.ibuf[u.ipos]? = some b)
    (hstuff : u.ibit = 0 → b = 0xFF → u.ibuf[u.ipos + 1]? = some 0) (h : u.wf) : (u.advance b).wf := by
  obtain ⟨-, hmid, hmarker⟩ := h
  have hpos := (List.getElem?_eq_some_iff.mp hb).1
  have hnext : b = 0xFF → u.ipos + 1 < u.ibuf.length ∧ memRead u.ibuf (u.ipos + 1) = 0x00 := by
    intro hff
    by_cases hbit : u.ibit = 0
    · have hzero := hstuff hbit hff
      exact ⟨(List.getElem?_eq_some_iff.mp hzero).1, memRead_of_getElem? hzero⟩
    · exact (hmid hbit).2 ((memRead_of_getElem? hb).trans hff)
  refine ⟨?_, ?_, by simpa using hmarker⟩
  · unfold Unpacker.advance
    split
    · dsimp only
      split
      next hff => have := (hnext hff).1; omega
      next => omega
    · exact hpos.le
  · unfold Unpacker.advance
    split
    · exact fun h0 => absurd rfl h0
    · exact fun _ => ⟨hpos, fun hff => hnext ((memRead_of_getElem? hb).symm.trans hff)⟩

/-- `u` and `st` are Unpacker and `STATUS` after reads: the buffer stays, only `MRK` may be set, the Unpacker stays well formed, and
a marker held is a marker recorded (R29, R40, R156). -/
structure ReadTo (s : State) (u : Unpacker) (st : BitVec 6) : Prop where
  ibuf : u.ibuf = s.unp.ibuf
  status : st = s.status ∨ st = s.status ||| flagMrk
  wf : s.unp.wf → u.wf
  recorded : (s.unp.marker ≠ 0 → s.status.getLsbD 4 = true) → u.marker ≠ 0 → st.getLsbD 4 = true

/-- `t` is `s` after reads. -/
def ReadsOn (s t : State) : Prop := ∃ u st, ReadTo s u st ∧ t = { s with unp := u, status := st }

theorem ReadTo.refl (s : State) : ReadTo s s.unp s.status := ⟨rfl, .inl rfl, id, id⟩

theorem ReadTo.trans {s : State} {u u' : Unpacker} {st st' : BitVec 6} (h : ReadTo s u st)
    (h' : ReadTo { s with unp := u, status := st } u' st') : ReadTo s u' st' where
  ibuf := h'.ibuf.trans h.ibuf
  status := by
    obtain rfl | rfl := h.status <;> obtain rfl | rfl := h'.status
    · exact .inl rfl
    · exact .inr rfl
    · exact .inr rfl
    · exact .inr (by rw [BitVec.or_assoc, BitVec.or_self])
  wf hwf := h'.wf (h.wf hwf)
  recorded hs := h'.recorded (h.recorded hs)

theorem ReadsOn.latch_eq {s t : State} (h : ReadsOn s t) : t.latch = s.latch := by
  obtain ⟨_, _, -, rfl⟩ := h
  rfl

theorem ReadsOn.refl (s : State) : ReadsOn s s := ⟨_, _, ReadTo.refl s, rfl⟩

theorem ReadsOn.trans {s t u : State} (h : ReadsOn s t) (h' : ReadsOn t u) : ReadsOn s u := by
  obtain ⟨_, _, hread, rfl⟩ := h
  obtain ⟨_, _, hread', rfl⟩ := h'
  exact ⟨_, _, hread.trans hread', rfl⟩

theorem State.getBit_readsOn (s : State) : ReadsOn s s.getBit.2 := by
  obtain h | ⟨n, h⟩ | ⟨b, hb, hstuff, h⟩ := s.unp.getBit_cases
  · rw [State.getBit_of_fail h]
    exact ⟨{ s.unp with eoseg := true }, s.status,
      ⟨rfl, .inl rfl, fun ⟨hpos, hmid, _⟩ => ⟨hpos, hmid, fun _ => rfl⟩, id⟩, rfl⟩
  · rw [State.getBit_of_fail h]
    have hset : (s.status ||| flagMrk).getLsbD 4 = true := by simp [flagMrk]
    exact ⟨{ s.unp with marker := n, eoseg := true }, s.status ||| flagMrk,
      ⟨rfl, .inr rfl, fun ⟨hpos, hmid, _⟩ => ⟨hpos, hmid, fun _ => rfl⟩, fun _ _ => hset⟩, rfl⟩
  · rw [Unpacker.deliver_eq] at h
    rw [State.getBit_of_bit h]
    exact ⟨_, _, ⟨s.unp.advance_ibuf b, .inl rfl, Unpacker.advance_wf hb hstuff,
      by rw [Unpacker.advance_marker]; exact id⟩, rfl⟩

theorem State.getBitsFrom_readsOn (n v : Nat) (s : State) : ReadsOn s (State.getBitsFrom v n s).2 := by
  induction n generalizing v s with
  | zero => exact ReadsOn.refl s
  | succ n ih =>
    have h := s.getBit_readsOn
    unfold State.getBitsFrom
    split
    next s1 e => rw [e] at h; exact h
    next b s1 e => rw [e] at h; exact h.trans (ih _ _)

theorem State.hdecode_readsOn (hs : HuffSlot) (s : State) : ReadsOn s (s.hdecode hs).2 := by
  unfold State.hdecode
  generalize Config.maxLen = n
  generalize 0 = cand
  induction n generalizing cand s with
  | zero => exact ReadsOn.refl s
  | succ n ih =>
    have h := s.getBit_readsOn
    unfold State.hdecodeFrom
    split
    next s1 e => rw [e] at h; exact h
    next b s1 e =>
      rw [e] at h
      split
      · exact h
      · exact h.trans (ih _ _)

theorem State.recvVal_readsOn (c : Nat) (s : State) : ReadsOn s (s.recvVal c).2 := by
  have h := State.getBitsFrom_readsOn c 0 s
  unfold State.recvVal State.getBits
  split
  next s1 e => rw [e] at h; exact h
  next b s1 e => rw [e] at h; exact h

/-! ## What a block can do -/

/-- `t` is `s` after reads that may have written block and predictor of channel `ch` (R202). -/
def DecodesOn (ch : Chan) (s t : State) : Prop :=
  ∃ u b p st, ReadTo s u st ∧ t = { s with unp := u, coef := s.coef.set ch b, pred := s.pred.set ch p, status := st }

theorem ReadsOn.decodesOn {s t : State} (ch : Chan) (h : ReadsOn s t) : DecodesOn ch s t := by
  obtain ⟨u, st, hread, rfl⟩ := h
  exact ⟨u, s.coef[ch], s.pred[ch], st, hread, by simp⟩

theorem DecodesOn.trans {ch : Chan} {s t u : State} (h : DecodesOn ch s t) (h' : DecodesOn ch t u) : DecodesOn ch s u := by
  obtain ⟨_, _, _, _, hread, rfl⟩ := h
  obtain ⟨u', b', p', st', hread', rfl⟩ := h'
  refine ⟨u', b', p', st', hread.trans ⟨hread'.ibuf, hread'.status, hread'.wf, hread'.recorded⟩, ?_⟩
  simp

theorem State.setCoef_decodesOn (ch : Chan) (i : Fin 64) (v : Word) (s : State) : DecodesOn ch s (s.setCoef ch i v) :=
  ⟨s.unp, s.coef[ch].set i v, s.pred[ch], s.status, ReadTo.refl s, by simp [State.setCoef]⟩

theorem State.setPred_decodesOn (ch : Chan) (v : Word) (s : State) : DecodesOn ch s (s.setPred ch v) :=
  ⟨s.unp, s.coef[ch], v, s.status, ReadTo.refl s, by simp [State.setPred]⟩

theorem State.setBlock_decodesOn (ch : Chan) (b : Block) (s : State) : DecodesOn ch s (s.setBlock ch b) :=
  ⟨s.unp, b, s.pred[ch], s.status, ReadTo.refl s, by simp [State.setBlock]⟩

/-- How the decoding of a block, or a part of it, ends: well, or with the one DecodeError of its channel (R201, R202). -/
def DecodeEnd (ch : Chan) (s : State) (ok : Bool) (t : State) : Prop :=
  ∃ t0, DecodesOn ch s t0 ∧
    ((ok = true ∧ t = t0) ∨ (ok = false ∧ ∃ (c : Cause) (aux : Byte), c.kind = .decode ∧ t = t0.afterBlockError c ch aux))

theorem DecodesOn.ok {ch : Chan} {s t : State} (h : DecodesOn ch s t) : DecodeEnd ch s true t := ⟨t, h, .inl ⟨rfl, rfl⟩⟩

theorem DecodesOn.raise {ch : Chan} {s t : State} {c : Cause} (h : DecodesOn ch s t) (hc : c.kind = .decode) (aux : Byte) :
    DecodeEnd ch s false (t.raise c (some ch) aux) :=
  ⟨t, h, .inr ⟨rfl, c, aux, hc, t.raise_recoverable ch aux (.inr hc)⟩⟩

theorem DecodesOn.andThen {ch : Chan} {s t u : State} {ok : Bool} (h : DecodesOn ch s t) (h' : DecodeEnd ch t ok u) :
    DecodeEnd ch s ok u := by
  obtain ⟨t0, ht0, hend⟩ := h'
  exact ⟨t0, h.trans ht0, hend⟩

theorem DecodeEnd.decodesOn {ch : Chan} {s t : State} (h : DecodeEnd ch s true t) : DecodesOn ch s t := by
  obtain ⟨t0, ht0, ⟨-, rfl⟩ | ⟨hf, -⟩⟩ := h
  · exact ht0
  · cases hf

theorem DecodeEnd.latch_eq {ch : Chan} {s t : State} {ok : Bool} (h : DecodeEnd ch s ok t) : t.latch = s.latch := by
  obtain ⟨_, ⟨_, _, _, _, -, rfl⟩, ⟨-, rfl⟩ | ⟨-, _, _, -, rfl⟩⟩ := h
  · rfl
  · rfl

theorem State.dcItem_end (ch : Chan) (c : Nat) (s : State) : DecodeEnd ch s (s.dcItem ch c).1 (s.dcItem ch c).2 := by
  have h := (s.recvVal_readsOn c).decodesOn ch
  unfold State.dcItem
  split
  next e s1 he => rw [he] at h; exact h.raise (State.recvVal_cause_kind he) _
  next d s1 he => rw [he] at h; exact (h.trans ((s1.setPred_decodesOn ch _).trans (State.setCoef_decodesOn ch 0 _ _))).ok

theorem State.runSizeItem_end (ch : Chan) (sym : Byte) (r c k : Nat) (s : State) :
    DecodeEnd ch s (s.runSizeItem ch sym r c k).1 (s.runSizeItem ch sym r c k).2.2 := by
  have h := (s.recvVal_readsOn c).decodesOn ch
  unfold State.runSizeItem
  split
  · exact ((ReadsOn.refl s).decodesOn ch).raise (c := .indexOverflow) rfl _
  · split
    next e s1 he => rw [he] at h; exact h.raise (State.recvVal_cause_kind he) _
    next v s1 he => rw [he] at h; exact (h.trans (State.setCoef_decodesOn ch _ _ s1)).ok

theorem State.acItem_end (ch : Chan) (sym : Byte) (k : Nat) (s : State) :
    DecodeEnd ch s (s.acItem ch sym k).1 (s.acItem ch sym k).2.2 := by
  unfold State.acItem
  split
  · exact ((ReadsOn.refl s).decodesOn ch).ok
  · exact ((ReadsOn.refl s).decodesOn ch).ok
  · exact State.runSizeItem_end ..
  · exact State.runSizeItem_end ..

theorem State.decodeAc_end (ch : Chan) (hs : HuffSlot) (fuel k : Nat) (s : State) :
    DecodeEnd ch s (State.decodeAc ch hs fuel k s).1 (State.decodeAc ch hs fuel k s).2 := by
  induction fuel generalizing k s with
  | zero => exact ((ReadsOn.refl s).decodesOn ch).ok
  | succ fuel ih =>
    have h := (s.hdecode_readsOn hs).decodesOn ch
    unfold State.decodeAc
    split
    · exact ((ReadsOn.refl s).decodesOn ch).ok
    · split
      next e s1 he => rw [he] at h; exact h.raise (State.hdecode_cause_kind he) _
      next sym s1 he =>
        rw [he] at h
        have ha := s1.acItem_end ch sym k
        split
        next k' s2 e => rw [e] at ha; exact h.andThen ha
        next k' s2 e => rw [e] at ha; exact (h.trans ha.decodesOn).andThen (ih _ _)

/-- What DECODE_BLOCK can do (R202). -/
theorem State.decodeBlock_end (ch : Chan) (s : State) : DecodeEnd ch s (s.decodeBlock ch).1 (s.decodeBlock ch).2 := by
  have h := (s.setBlock_decodesOn ch zeroBlock).trans
    (((s.setBlock ch zeroBlock).hdecode_readsOn (s.dcTable ch)).decodesOn ch)
  unfold State.decodeBlock
  dsimp only
  split
  next e s1 he => rw [he] at h; exact h.raise (State.hdecode_cause_kind he) _
  next sym s1 he =>
    rw [he] at h
    split
    · exact h.raise (c := .badCategory) rfl _
    next c hc =>
      have hd := s1.dcItem_end ch c.toNat
      split
      next s2 e => rw [e] at hd; exact h.andThen hd
      next s2 e => rw [e] at hd; exact (h.trans hd.decodesOn).andThen (State.decodeAc_end ..)

/-! ## Registers set aside -/

/-- The component slots and the latch replaced, where a replacement is given: registers that reads, errors and the decoding of a
block do not touch. -/
def State.aside (c : Option (Vector CompSlot 3)) (l : Option Latch) (s : State) : State :=
  { s with comp := c.getD s.comp, latch := l.getD s.latch }

section
variable (c : Option (Vector CompSlot 3)) (l : Option Latch) (s : State)

theorem State.getBit_aside : (s.aside c l).getBit = (s.getBit.1, s.getBit.2.aside c l) := by
  cases h : s.unp.getBit with
  | bit b u => rw [State.getBit_of_bit h, State.getBit_of_bit (s := s.aside c l) h]; rfl
  | fail marker u => rw [State.getBit_of_fail h, State.getBit_of_fail (s := s.aside c l) h]; rfl

theorem State.getBitsFrom_aside (n v : Nat) :
    State.getBitsFrom v n (s.aside c l) = ((State.getBitsFrom v n s).1, (State.getBitsFrom v n s).2.aside c l) := by
  induction n generalizing v s with
  | zero => rfl
  | succ n ih =>
    rw [State.getBitsFrom, State.getBitsFrom, State.getBit_aside]
    rcases s.getBit with ⟨_ | b, s1⟩
    · rfl
    · exact ih s1 _

theorem State.hdecodeFrom_aside (h : HuffSlot) (n cand : Nat) :
    State.hdecodeFrom h n cand (s.aside c l) = ((State.hdecodeFrom h n cand s).1, (State.hdecodeFrom h n cand s).2.aside c l) := by
  induction n generalizing cand s with
  | zero => rfl
  | succ n ih =>
    rw [State.hdecodeFrom, State.hdecodeFrom, State.getBit_aside]
    rcases s.getBit with ⟨_ | b, s1⟩
    · rfl
    · dsimp only
      cases h.matching (Config.maxLen - n) (2 * cand + b.toNat) with
      | some e => rfl
      | none => exact ih s1 _

theorem State.hdecode_aside (h : HuffSlot) : (s.aside c l).hdecode h = ((s.hdecode h).1, (s.hdecode h).2.aside c l) :=
  s.hdecodeFrom_aside c l h _ _

theorem State.recvVal_aside (n : Nat) : (s.aside c l).recvVal n = ((s.recvVal n).1, (s.recvVal n).2.aside c l) := by
  rw [State.recvVal, State.recvVal, State.getBits, State.getBits, State.getBitsFrom_aside]
  rcases State.getBitsFrom 0 n s with ⟨_ | b, s1⟩ <;> rfl

theorem State.raise_aside (e : Cause) (ch : Chan) (aux : Byte) (he : e.kind = .encode ∨ e.kind = .decode) :
    (s.aside c l).raise e (some ch) aux = (s.raise e (some ch) aux).aside c l := by
  rw [State.raise_recoverable _ ch aux he, State.raise_recoverable _ ch aux he]
  rfl

theorem State.dcItem_aside (ch : Chan) (n : Nat) :
    (s.aside c l).dcItem ch n = ((s.dcItem ch n).1, (s.dcItem ch n).2.aside c l) := by
  rw [State.dcItem, State.dcItem, State.recvVal_aside]
  rcases hr : s.recvVal n with ⟨e | v, s1⟩
  · exact congrArg (Prod.mk false) (s1.raise_aside c l e ch _ (.inr (State.recvVal_cause_kind hr)))
  · rfl

theorem State.runSizeItem_aside (ch : Chan) (sym : Byte) (r n k : Nat) :
    (s.aside c l).runSizeItem ch sym r n k
      = ((s.runSizeItem ch sym r n k).1, (s.runSizeItem ch sym r n k).2.1, (s.runSizeItem ch sym r n k).2.2.aside c l) := by
  rw [State.runSizeItem, State.runSizeItem, State.recvVal_aside]
  split
  · exact congrArg (fun t => (false, k + r, t)) (s.raise_aside c l .indexOverflow ch _ (.inr rfl))
  · rcases hr : s.recvVal n with ⟨e | v, s1⟩
    · exact congrArg (fun t => (false, k + r, t)) (s1.raise_aside c l e ch _ (.inr (State.recvVal_cause_kind hr)))
    · rfl

theorem State.acItem_aside (ch : Chan) (sym : Byte) (k : Nat) :
    (s.aside c l).acItem ch sym k
      = ((s.acItem ch sym k).1, (s.acItem ch sym k).2.1, (s.acItem ch sym k).2.2.aside c l) := by
  unfold State.acItem
  cases acSymbol sym with
  | eob => rfl
  | zrl => rfl
  | skip r => exact s.runSizeItem_aside c l ..
  | runSize r n => exact s.runSizeItem_aside c l ..

end

/-! ## Symbol by symbol -/

/-- An AC symbol run on its own is the item of a block at the latch's channel and position (R198). -/
theorem exec_decodeAcSymbol (sym : Byte) (s : State) :
    exec (decodeAcSymbol sym) s = .next (symbolEnd (s.acItem s.latch.ch sym s.latch.k)) := by
  have hsym := symbolByte_decodeAcSymbol sym
  unfold decodeAcSymbol at hsym ⊢
  unfold State.acItem
  cases hac : acSymbol sym with
  | eob => rfl
  | zrl => rfl
  | skip r =>
    rw [hac] at hsym
    obtain rfl : r ++ 0#4 = sym := Option.some.inj hsym
    rfl
  | runSize r c =>
    rw [hac] at hsym
    obtain rfl : r ++ c = sym := Option.some.inj hsym
    rfl

/-- An AC item that succeeds goes on by at least one position (R198). -/
theorem State.acItem_position {s : State} {ch : Chan} {sym : Byte} {k : Nat} (hk : k < 64) (h : (s.acItem ch sym k).1 = true) :
    k < (s.acItem ch sym k).2.1 := by
  have hrun (r c : Nat) (h : (s.runSizeItem ch sym r c k).1 = true) : k < (s.runSizeItem ch sym r c k).2.1 := by
    unfold State.runSizeItem at h ⊢
    by_cases hover : 63 < k + r
    · rw [if_pos hover] at h; cases h
    · rw [if_neg hover] at h ⊢
      generalize s.recvVal c = z at h ⊢
      obtain ⟨e | v, s1⟩ := z
      · cases h
      · exact Nat.lt_succ_of_le (Nat.le_add_right k r)
  unfold State.acItem at h ⊢
  split at h
  · exact hk
  · exact Nat.lt_add_of_pos_right (by decide)
  · exact hrun _ _ h
  · exact hrun _ _ h

/-- The AC loop runs its symbols one by one from the latch, the bound on their number being enough (R198, log entry 15). -/
theorem State.decodeAc_acRun (h : HuffSlot) (fuel : Nat) (s : State) (hfuel : 64 ≤ s.latch.k + fuel) :
    ∃ ok t, AcRun h s (if ok then .ok else .fail) t ∧
      ∀ l, State.decodeAc s.latch.ch h fuel s.latch.k (s.aside none (some l)) = (ok, t.aside none (some l)) := by
  induction fuel generalizing s with
  | zero => exact ⟨true, s, .done (by omega), fun l => rfl⟩
  | succ fuel ih =>
    by_cases hk : 64 ≤ s.latch.k
    · exact ⟨true, s, .done hk, fun l => by rw [State.decodeAc, if_pos hk]⟩
    have hlatch := (s.hdecode_readsOn h).latch_eq
    simp only [State.decodeAc, if_neg hk, State.hdecode_aside]
    rw [Nat.not_le] at hk
    rcases hd : s.hdecode h with ⟨e | sym, s1⟩
    · rw [hd] at hlatch
      refine ⟨false, s1.afterNoSymbol e, .noSymbol hk hd, fun l => congrArg (Prod.mk false) ?_⟩
      rw [State.raiseRead, State.raise_aside _ _ _ e _ _ (.inr (State.hdecode_cause_kind hd)),
        s1.raise_recoverable _ _ (.inr (State.hdecode_cause_kind hd)), ← hlatch]
      rfl
    · rw [hd] at hlatch
      have hexec := exec_decodeAcSymbol sym s1
      have hpos : (s1.acItem s.latch.ch sym s.latch.k).1 = true → s.latch.k < (s1.acItem s.latch.ch sym s.latch.k).2.1 :=
        State.acItem_position hk
      have hsame := (s1.acItem_end s.latch.ch sym s.latch.k).latch_eq
      simp only [State.acItem_aside]
      rw [hlatch] at hexec
      generalize s1.acItem s.latch.ch sym s.latch.k = z at hexec hpos hsame ⊢
      obtain ⟨_ | _, k', s2⟩ := z
      · exact ⟨false, _, .failed hk hd hexec rfl, fun l => rfl⟩
      · obtain ⟨ok, t, hrun, hloop⟩ := ih (symbolEnd (true, k', s2)) (by
          have hnext : s.latch.k < k' := hpos rfl
          show 64 ≤ k' + fuel
          omega)
        refine ⟨ok, t, .item hk hd hexec rfl hrun, fun l => ?_⟩
        have hch : s2.latch.ch = s.latch.ch := congrArg Latch.ch (hsame.trans hlatch)
        rw [← hloop l, ← hch]
        rfl

theorem dcCategory_some {sym : Byte} {c : BitVec 5} (h : dcCategory sym = some c) : c.toNat ≤ 16 := by
  revert c
  revert sym
  decide

theorem dcCategory_none {sym : Byte} (h : dcCategory sym = none) : 16 < sym.toNat := by
  by_contra hle
  rw [dcCategory, if_pos (Nat.le_of_not_lt hle)] at h
  cases h

/-- DCCAT on its own is the DC item of the latch's channel (R197). -/
theorem exec_dccat_eq {c : BitVec 5} (hc : c.toNat ≤ 16) (s : State) :
    exec (.dccat c) s = .next (symbolEnd ((s.dcItem s.latch.ch c.toNat).1,
      if (s.dcItem s.latch.ch c.toNat).1 then 1 else s.latch.k, (s.dcItem s.latch.ch c.toNat).2)) := by
  simp only [exec, execDccat, if_neg (Nat.not_lt.mpr hc)]

/-- DECODE_BLOCK runs its symbols one by one, from a cleared block at position 1 (R195 to R199). -/
theorem State.decodeBlock_blockRun (s : State) (ch : Chan) :
    ∃ ok t, BlockRun (s.dcTable ch) (s.acTable ch)
        { s with coef := s.coef.set ch (Vector.replicate 64 0), latch := { ch := ch, k := 1, res := .none } }
        (if ok then .ok else .fail) t ∧
      s.decodeBlock ch = (ok, { t with latch := s.latch }) := by
  generalize hs : { s with coef := s.coef.set ch (Vector.replicate 64 0), latch := { ch := ch, k := 1, res := .none } } = b
  have hback : s.setBlock ch zeroBlock = b.aside none (some s.latch) := by rw [← hs]; rfl
  have hlatch := (b.hdecode_readsOn (s.dcTable ch)).latch_eq
  have hch : b.latch.ch = ch := by rw [← hs]
  unfold State.decodeBlock
  simp only [hback, State.hdecode_aside]
  rcases hd : b.hdecode (s.dcTable ch) with ⟨e | sym, s1⟩
  · rw [hd] at hlatch
    refine ⟨false, s1.afterNoSymbol e, .noSymbol hd, congrArg (Prod.mk false) ?_⟩
    rw [State.raiseRead, State.raise_aside _ _ _ e _ _ (.inr (State.hdecode_cause_kind hd)),
      s1.raise_recoverable _ _ (.inr (State.hdecode_cause_kind hd)), ← hch, ← hlatch]
    rfl
  · rw [hd] at hlatch
    have hch1 : s1.latch.ch = ch := (congrArg Latch.ch hlatch).trans hch
    dsimp only
    cases hc : dcCategory sym with
    | none =>
      refine ⟨false, s1.afterBlockError .badCategory s1.latch.ch sym, .badCategory hd (dcCategory_none hc),
        congrArg (Prod.mk false) ?_⟩
      rw [State.raise_aside _ _ _ .badCategory _ _ (.inr rfl), s1.raise_recoverable _ _ (.inr rfl), hch1]
      rfl
    | some c =>
      have hsym : decodeDcSymbol sym = .ok (.dccat c) := by rw [decodeDcSymbol, hc]
      have hexec := exec_dccat_eq (dcCategory_some hc) s1
      have hsame := (s1.dcItem_end ch c.toNat).latch_eq
      simp only [State.dcItem_aside]
      rw [hch1] at hexec
      generalize s1.dcItem ch c.toNat = z at hexec hsame ⊢
      obtain ⟨_ | _, s2⟩ := z
      · exact ⟨false, _, .failed hd hsym hexec rfl, rfl⟩
      · obtain ⟨ok, t, hrun, hloop⟩ := State.decodeAc_acRun (s.acTable ch) 63 (symbolEnd (true, 1, s2)) le_rfl
        refine ⟨ok, t, .item hd hsym hexec rfl hrun, ?_⟩
        have hch2 : s2.latch.ch = ch := (congrArg Latch.ch hsame).trans hch1
        refine Eq.trans ?_ (hloop s.latch)
        show _ = State.decodeAc s2.latch.ch _ _ _ _
        rw [hch2]
        rfl

theorem exec_decodeBlock_eq (ch : Chan) (s : State) :
    exec (.decodeBlock ch) s = .next ((s.decodeBlock ch).2.returning (if (s.decodeBlock ch).1 then .ok else .fail)) := by
  simp only [exec, execDecodeBlock]
  rcases s.decodeBlock ch with ⟨_ | _, t⟩ <;> rfl

/-- A DC symbol above 16 is no category (R113 (5), R197). -/
theorem State.decodeBlock_of_badCategory {s : State} {ch : Chan} {sym : Byte} {s1 : State}
    (hd : (s.setBlock ch zeroBlock).hdecode (s.dcTable ch) = (.ok sym, s1)) (hsym : 16 < sym.toNat) :
    s.decodeBlock ch = (false, s1.afterBlockError .badCategory ch sym) := by
  have hcat : dcCategory sym = none := if_neg (Nat.not_le.mpr hsym)
  simp only [State.decodeBlock, hd, hcat, s1.raise_recoverable (c := .badCategory) ch sym (.inr rfl)]

/-- Settles O36: what DECODE_BLOCK can do, its run symbol by symbol, and the DC symbol that is none. -/
theorem decodeBlockEffect : Obligations.DecodeBlockEffect := by
  unfold Obligations.DecodeBlockEffect
  intro s ch
  refine ⟨?_, ?_, ?_⟩
  · have hexec := exec_decodeBlock_eq ch s
    obtain ⟨t0, ⟨u, b, p, st, hread, ht0⟩, ⟨hok, ht⟩ | ⟨hfail, c, aux, hc, ht⟩⟩ := s.decodeBlock_end ch
    · rw [hok, ht, ht0] at hexec
      exact ⟨u, b, p, st, hread.ibuf, hread.status, .inl hexec⟩
    · rw [hfail, ht, ht0] at hexec
      exact ⟨u, b, p, st, hread.ibuf, hread.status, .inr ⟨c, aux, hc, hexec⟩⟩
  · obtain ⟨ok, t, hrun, heq⟩ := s.decodeBlock_blockRun ch
    exact ⟨_, t, hrun, by rw [exec_decodeBlock_eq, heq]⟩
  · intro e u hwf hvalid he hsym hreads
    have hd := State.hdecode_of_code (hwf.hasCodes hvalid) he (s := s.setBlock ch zeroBlock) hreads
    rw [exec_decodeBlock_eq, State.decodeBlock_of_badCategory hd hsym]
    rfl

end Sys2Proof.Machine
end

section
/-! PROOFS. The block round trip (R203): the bits of the items of a block lead DECODE_BLOCK through the same positions, and what it
stores is the block. -/

namespace Sys2Proof.Machine

open Sys2Proof

/-! ## The zigzag walk -/

/-- `ZI` is the inverse of `ZZ` (R38). -/
theorem zi_zz {k : Nat} (hk : k < 64) : zi (zz k).val = k := by
  have h : ∀ k : Fin 64, zi (zz k.val).val = k.val := by decide
  exact h ⟨k, hk⟩

theorem zz_zi (i : Fin 64) : zz (zi i.val).val = i := by
  revert i
  decide

/-- Settles O42, step by step. -/
theorem zigzagIsTheDiagonalWalk : Obligations.ZigzagIsTheDiagonalWalk := by
  unfold Obligations.ZigzagIsTheDiagonalWalk
  decide

/-- Stores the non-zero coefficients of a list that begins at zigzag position `k`. -/
def fillFrom : Nat → List Word → Block → Block
  | _, [], b => b
  | k, v :: vs, b => fillFrom (k + 1) vs (if v = 0 then b else b.set (zz k) v)

/-- A block that is right below zigzag position `k`, and 0 from there on, is completed by storing the rest (R198). -/
theorem fillFrom_eq (target : Block) {k n : Nat} (hk : k + n = 64) {b : Block}
    (hb : ∀ i : Fin 64, b[i] = if (zi i.val).val < k then target[i] else 0) :
    fillFrom k ((List.range' k n).map (fun k => target[zz k])) b = target := by
  induction n generalizing k b with
  | zero =>
    refine Vector.ext fun i hi => ?_
    have hlt : (zi i).val < k := by omega
    have hi' := hb ⟨i, hi⟩
    rwa [if_pos hlt] at hi'
  | succ n ih =>
    rw [List.range'_succ, List.map_cons, fillFrom]
    refine ih (by omega) fun i => ?_
    have hzi : (zi i.val).val = k ↔ zz k = i := by
      constructor
      · rintro rfl
        exact zz_zi i
      · rintro rfl
        rw [zi_zz (by omega)]
    have hi := hb i
    by_cases hv : target[zz k] = 0
    · rw [if_pos hv, hi]
      by_cases hki : zz k = i
      · subst hki
        have hval := hzi.mpr rfl
        simp [hval, hv]
      · have hne := mt hzi.mp hki
        congr 1
        exact propext ⟨fun h => by omega, fun h => by omega⟩
    · rw [if_neg hv]
      by_cases hki : zz k = i
      · subst hki
        have hval := hzi.mpr rfl
        simp [hval]
      · have hne := mt hzi.mp hki
        have hval : (zz k).val ≠ i.val := fun h => hki (Fin.ext h)
        rw [Fin.getElem_fin, Vector.getElem_set_ne _ _ hval, ← Fin.getElem_fin, hi]
        congr 1
        exact propext ⟨fun h => by omega, fun h => by omega⟩

/-! ## AC items -/

theorem itemsBits_cons {h : HuffSlot} {it : AcItem} {its : List AcItem} {w : List Bool}
    (hw : itemsBits h (it :: its) = some w) :
    ∃ e ws, it.entry h = some e ∧ itemsBits h its = some ws ∧ w = e.bits ++ it.magnitude ++ ws := by
  rw [itemsBits, AcItem.bits_eq, ← AcItem.magnitude_eq] at hw
  cases he : it.entry h with
  | none => rw [he] at hw; cases hw
  | some e =>
    rw [he] at hw
    obtain ⟨ws, hws, rfl⟩ := Option.map_eq_some_iff.mp hw
    exact ⟨e, ws, rfl, hws, rfl⟩

theorem itemsBits_append (h : HuffSlot) (its rest : List AcItem) :
    itemsBits h (its ++ rest) = (itemsBits h its).bind (fun w => (itemsBits h rest).map (w ++ ·)) := by
  induction its with
  | nil => cases hr : itemsBits h rest <;> simp [itemsBits, hr]
  | cons it its ih =>
    simp only [List.cons_append, itemsBits, ih]
    cases it.bits h with
    | none => rfl
    | some w => cases itemsBits h its <;> cases itemsBits h rest <;> simp

/-- Only a coefficient of a category up to 15 has an entry (R180). -/
theorem AcItem.coef_entry_some {h : HuffSlot} {run : Nat} {v : Int} {e : HuffEntry}
    (he : (AcItem.coef run v).entry h = some e) :
    categoryOf v ≤ 15 ∧ h.lookup (BitVec.ofNat 8 (16 * run + categoryOf v)) = some e := by
  by_cases hlarge : 15 < categoryOf v
  · rw [AcItem.coef_entry_of_large h run hlarge] at he; cases he
  · exact ⟨by omega, (AcItem.coef_entry h run hlarge).symm.trans he⟩

/-- The symbol of a coefficient is read as its run and its value (R106, R198). -/
theorem State.acItem_of_coef {s : State} {u : Unpacker} (ch : Chan) {k run j : Nat} {v : Int} (hj : k + run = j)
    (hrun : run < 16) (hv : v ≠ 0) (hcat : categoryOf v ≤ 15) (hk : j ≤ 63)
    (hreads : Unpacker.reads (AcItem.coef run v).magnitude s.unp = some u) :
    s.acItem ch (BitVec.ofNat 8 (16 * run + categoryOf v)) k = (true, j + 1, { s with
      unp := u
      coef := s.coef.set ch (s.coef[ch].set (zz j) (BitVec.ofInt 32 v)) }) := by
  subst hj
  have hpos := categoryOf_pos hv
  have hr : (BitVec.ofNat 4 run).toNat = run := Nat.mod_eq_of_lt hrun
  have hc : (BitVec.ofNat 4 (categoryOf v)).toNat = categoryOf v := Nat.mod_eq_of_lt (by omega)
  have hsym : acSymbol (BitVec.ofNat 8 (16 * run + categoryOf v))
      = .runSize (BitVec.ofNat 4 run) (BitVec.ofNat 4 (categoryOf v)) := by
    have happend := toNat_append_nibbles (BitVec.ofNat 4 run) (BitVec.ofNat 4 (categoryOf v))
    rw [hr, hc] at happend
    rw [← happend]
    exact acSymbol_runSize fun h0 => by rw [h0] at hc; exact absurd hc (by simp; omega)
  simp only [State.acItem, hsym, hr, hc]
  exact State.runSizeItem_of_reads ch _ hk (categoryOf_isCategory v) hreads

section
variable {h : HuffSlot} (hcodes : h.HasCodes) {s : State} {u : Unpacker} {e : HuffEntry} {sym : Byte} (ch : Chan)
include hcodes

/-- The AC loop reads the code of a symbol and goes on as the symbol's item does (R198). -/
theorem State.decodeAc_of_symbol {k k' : Nat} {s2 : State} (fuel : Nat) (hk : k < 64) (hl : h.lookup sym = some e)
    (hreads : Unpacker.reads e.bits s.unp = some u) (hitem : State.acItem ch sym k { s with unp := u } = (true, k', s2)) :
    State.decodeAc ch h (fuel + 1) k s = State.decodeAc ch h fuel k' s2 := by
  obtain ⟨he, rfl⟩ := HuffSlot.lookup_some hl
  simp only [State.decodeAc, if_neg (Nat.not_le.mpr hk), State.hdecode_of_code hcodes he hreads, hitem]

/-- ZRLs go on sixteen positions each (R198). -/
theorem State.decodeAc_of_zrls {k n : Nat} {w : List Bool} (fuel : Nat) (hk : k + 16 * n < 64)
    (hw : itemsBits h (List.replicate n .zrl) = some w) (hreads : Unpacker.reads w s.unp = some u) :
    State.decodeAc ch h (n + fuel) k s = State.decodeAc ch h fuel (k + 16 * n) { s with unp := u } := by
  induction n generalizing k s w with
  | zero =>
    obtain rfl := Option.some.inj hw
    obtain rfl := Option.some.inj hreads
    rw [Nat.zero_add]
    rfl
  | succ n ih =>
    rw [List.replicate_succ] at hw
    obtain ⟨e, ws, hl, hws, rfl⟩ := itemsBits_cons hw
    rw [AcItem.magnitude, List.append_nil, Unpacker.reads_append] at hreads
    obtain ⟨u', hcode, hrest⟩ := Option.bind_eq_some_iff.mp hreads
    rw [Nat.add_right_comm, State.decodeAc_of_symbol hcodes ch (n + fuel) (sym := 0xF0) (by omega) hl hcode rfl,
      ih (s := { s with unp := u' }) (by omega) hws hrest]
    congr 1
    omega

/-- The items of the coefficients from a position on are read back as these coefficients (R198, R203). -/
theorem State.decodeAc_of_items {vs : List Word} {last run fuel : Nat} {w : List Bool}
    (hk : last + run + 1 + vs.length = 64) (hfuel : 64 ≤ last + 1 + fuel)
    (hw : itemsBits h (itemsFrom last (termsFrom (last + run + 1) vs)) = some w)
    (hreads : Unpacker.reads w s.unp = some u) :
    State.decodeAc ch h fuel (last + 1) s
      = (true, { s with unp := u, coef := s.coef.set ch (fillFrom (last + run + 1) vs s.coef[ch]) }) := by
  have hended (fuel : Nat) (s : State) : State.decodeAc ch h fuel 64 s = (true, s) := by cases fuel <;> rfl
  induction vs generalizing last run fuel s w with
  | nil =>
    rw [List.length_nil] at hk
    rw [termsFrom, itemsFrom] at hw
    by_cases hlast : last = 63
    · rw [if_pos hlast] at hw
      obtain rfl := Option.some.inj hw
      obtain rfl := Option.some.inj hreads
      rw [hlast, hended]
      simp [fillFrom]
    · rw [if_neg hlast] at hw
      obtain ⟨e, ws, hl, hws, rfl⟩ := itemsBits_cons hw
      obtain rfl := Option.some.inj hws
      rw [AcItem.magnitude, List.append_nil, List.append_nil] at hreads
      obtain ⟨fuel, rfl⟩ : ∃ f, fuel = f + 1 := ⟨fuel - 1, by omega⟩
      rw [State.decodeAc_of_symbol hcodes ch fuel (sym := 0x00) (by omega) hl hreads rfl, hended]
      simp [fillFrom]
  | cons v vs ih =>
    rw [List.length_cons] at hk
    rw [termsFrom] at hw
    by_cases hv : v = 0
    · rw [if_pos hv] at hw
      rw [fillFrom, if_pos hv]
      exact ih (run := run + 1) (by omega) hfuel hw hreads
    · rw [if_neg hv, itemsFrom, show last + run + 1 - last - 1 = run by omega, itemsBits_append] at hw
      obtain ⟨wz, hwz, hw⟩ := Option.bind_eq_some_iff.mp hw
      obtain ⟨wc, hwc, rfl⟩ := Option.map_eq_some_iff.mp hw
      rw [Unpacker.reads_append] at hreads
      obtain ⟨uz, hz, hreads⟩ := Option.bind_eq_some_iff.mp hreads
      obtain ⟨e, ws, hentry, hws, rfl⟩ := itemsBits_cons hwc
      obtain ⟨hcat, hl⟩ := AcItem.coef_entry_some hentry
      rw [List.append_assoc, Unpacker.reads_append] at hreads
      obtain ⟨uc, hcode, hreads⟩ := Option.bind_eq_some_iff.mp hreads
      rw [Unpacker.reads_append] at hreads
      obtain ⟨um, hmag, hreads⟩ := Option.bind_eq_some_iff.mp hreads
      obtain ⟨fuel, rfl⟩ : ∃ f, fuel = run / 16 + (f + 1) := ⟨fuel - run / 16 - 1, by omega⟩
      have hpos : last + 1 + 16 * (run / 16) + run % 16 = last + run + 1 := by omega
      have hne : v.toInt ≠ 0 := fun h0 => hv (BitVec.eq_of_toInt_eq h0)
      have hitem := State.acItem_of_coef (s := { s with unp := uc }) ch hpos (Nat.mod_lt _ (by decide)) hne hcat (by omega) hmag
      rw [State.decodeAc_of_zrls hcodes ch (fuel + 1) (by omega) hwz hz,
        State.decodeAc_of_symbol hcodes ch fuel (s := { s with unp := uz }) (by omega) hl hcode hitem,
        ih (last := last + run + 1) (run := 0) (by omega) (by omega) hws hreads, fillFrom, if_neg hv]
      simp

end

/-! ## The round trip -/

/-- A block that ENCODE_BLOCK writes without an error consists of its DC item and its AC items (R176 to R181). -/
theorem State.encodeBlock_written {s t : State} {ch : Chan} (hwf : s.packer.wf) (h : s.encodeBlock ch = (true, t)) :
    ∃ d ws, (s.dcTable ch).lookup (BitVec.ofNat 8 (categoryOf (s.dcDiff ch))) = some d ∧
      itemsBits (s.acTable ch) (acItems s.coef[ch]) = some ws ∧
      t.packer.bits = s.packer.bits ++ (d.bits
        ++ msbBits (magField (s.dcDiff ch) (categoryOf (s.dcDiff ch))).toNat (categoryOf (s.dcDiff ch)) ++ ws) := by
  have hc := categoryOf_isCategory (s.dcDiff ch)
  cases hl : (s.dcTable ch).lookup (BitVec.ofNat 8 (categoryOf (s.dcDiff ch))) with
  | none => rw [State.encodeBlock_of_absent s ch hc hl] at h; cases h
  | some d =>
    rw [State.encodeBlock_of_lookup s ch hc hl] at h
    have hdc := Packer.putCoded_wf d ((magField (s.dcDiff ch) (categoryOf (s.dcDiff ch))).toNat, categoryOf (s.dcDiff ch)) hwf
    have hdcBits := Packer.putCoded_bits d
      ((magField (s.dcDiff ch) (categoryOf (s.dcDiff ch))).toNat, categoryOf (s.dcDiff ch)) hwf
    generalize s.packer.putCoded d _ = p at h hdc hdcBits
    have hnone : (p.writeItems (s.acTable ch) (acItems s.coef[ch])).2 = none := by
      generalize p.writeItems (s.acTable ch) (acItems s.coef[ch]) = z at h
      obtain ⟨q, _ | it⟩ := z
      · rfl
      · cases h
    obtain ⟨ws, hws⟩ := Packer.itemsBits_of_writeItems hnone
    obtain ⟨q, -, hq, hwrite⟩ := Packer.writeItems_of_bits hws [] hdc
    rw [List.append_nil] at hwrite
    rw [hwrite] at h
    obtain ⟨-, rfl⟩ := Prod.mk.inj h
    refine ⟨d, ws, rfl, hws, Eq.trans (b := q.bits) rfl ?_⟩
    rw [hq, hdcBits]
    simp

/-- DECODE_BLOCK reads a DC item and AC items back as the block they were written for (R197 to R199, R203). -/
theorem State.decodeBlock_of_items {d : State} {ch : Chan} {block : Block} {diff : Int} {e : HuffEntry} {ws : List Bool}
    {u : Unpacker} (hdc : (d.dcTable ch).HasCodes) (hac : (d.acTable ch).HasCodes) (hcat : categoryOf diff ≤ 16)
    (hpred : d.pred[ch] + BitVec.ofInt 32 diff = block[(0 : Fin 64)])
    (hl : (d.dcTable ch).lookup (BitVec.ofNat 8 (categoryOf diff)) = some e)
    (hws : itemsBits (d.acTable ch) (acItems block) = some ws)
    (hreads : Unpacker.reads (e.bits ++ msbBits (magField diff (categoryOf diff)).toNat (categoryOf diff) ++ ws) d.unp = some u) :
    d.decodeBlock ch = (true, { d with
      unp := u, coef := d.coef.set ch block, pred := d.pred.set ch block[(0 : Fin 64)] }) := by
  rw [List.append_assoc, Unpacker.reads_append] at hreads
  obtain ⟨uc, hcode, hreads⟩ := Option.bind_eq_some_iff.mp hreads
  rw [Unpacker.reads_append] at hreads
  obtain ⟨um, hmag, hreads⟩ := Option.bind_eq_some_iff.mp hreads
  obtain ⟨he, hsym⟩ := HuffSlot.lookup_some hl
  have hc : (BitVec.ofNat 5 (categoryOf diff)).toNat = categoryOf diff := Nat.mod_eq_of_lt (by omega)
  have hdecode := State.hdecode_of_code hdc he (s := d.setBlock ch zeroBlock) hcode
  have hitem : State.dcItem ch (categoryOf diff) { d.setBlock ch zeroBlock with unp := uc } = (true, { d with
      unp := um
      pred := d.pred.set ch block[(0 : Fin 64)]
      coef := d.coef.set ch (zeroBlock.set 0 block[(0 : Fin 64)]) }) := by
    rw [State.dcItem_of_reads ch (categoryOf_isCategory diff) hmag]
    simp only [State.setBlock, hpred]
    simp
  rw [acItems_eq] at hws
  have hloop := State.decodeAc_of_items hac ch (last := 0) (run := 0) (fuel := 63)
    (s := { d with
      unp := um
      pred := d.pred.set ch block[(0 : Fin 64)]
      coef := d.coef.set ch (zeroBlock.set 0 block[(0 : Fin 64)]) })
    (by simp [Block.acTerms]) (by decide) hws hreads
  have hfill : fillFrom 1 (Block.acTerms block) (zeroBlock.set 0 block[(0 : Fin 64)]) = block := by
    rw [Block.acTerms_eq]
    refine fillFrom_eq block (by decide) fun i => ?_
    by_cases hi : i = 0
    · subst hi
      rfl
    · have hzi : ∀ i : Fin 64, i ≠ 0 → ¬ (zi i.val).val < 1 := by decide
      have hne : ¬ 0 = i.val := fun h => hi (Fin.ext h.symm)
      rw [if_neg (hzi i hi)]
      simp [hne, zeroBlock]
  simp only [State.decodeBlock, hdecode, hsym, dcCategory_of_le hcat, hc, hitem]
  have hget (b : Block) : (d.coef.set ch b)[ch] = b := by simp
  rw [hloop, hget, hfill, Vector.set_set]

/-- What ENCODE_BLOCK writes without an error, DECODE_BLOCK reads back with the same tables and the same predictor (R203). -/
theorem State.decodeBlock_of_encodeBlock {s t : State} {ch : Chan} (hwf : s.packer.wf) (h : s.encodeBlock ch = (true, t))
    (hdc : (s.dcTable ch).HasCodes) (hac : (s.acTable ch).HasCodes) (hdiff : (s.dcDiff ch).natAbs ≤ 65535) :
    ∃ w, t.packer.bits = s.packer.bits ++ w ∧
      ∀ (d : State) (u : Unpacker), d.dcTable ch = s.dcTable ch → d.acTable ch = s.acTable ch → d.pred[ch] = s.pred[ch] →
        Unpacker.reads w d.unp = some u → d.decodeBlock ch = (true, { d with
          unp := u, coef := d.coef.set ch s.coef[ch], pred := d.pred.set ch s.coef[ch][(0 : Fin 64)] }) := by
  obtain ⟨e, ws, hl, hws, hwritten⟩ := State.encodeBlock_written hwf h
  refine ⟨_, hwritten, fun d u hd ha hpred hreads => ?_⟩
  have hsum : d.pred[ch] + BitVec.ofInt 32 (s.dcDiff ch) = s.coef[ch][(0 : Fin 64)] := by
    rw [hpred, State.dcDiff, Int.sub_eq_add_neg, BitVec.ofInt_add, BitVec.ofInt_neg, BitVec.ofInt_toInt, BitVec.ofInt_toInt]
    exact add_neg_cancel_comm_assoc _ _
  exact State.decodeBlock_of_items (hd ▸ hdc) (ha ▸ hac) (categoryOf_le_of_natAbs_lt (Nat.lt_succ_of_le hdiff)) hsum
    (hd ▸ hl) (ha ▸ hws) hreads

/-- ENCODE_BLOCK on its own says whether the block went well. -/
theorem exec_encodeBlock_ok {s s' : State} {ch : Chan} (h : exec (.encodeBlock ch) s = .next (State.returning .ok s')) :
    ∃ t, s.encodeBlock ch = (true, t) ∧ t.packer = s'.packer := by
  rcases he : s.encodeBlock ch with ⟨_ | _, t⟩
  · rw [exec_encodeBlock_of_false he] at h
    have hres := congrArg (fun s : State => s.latch.res) (Host.Outcome.next.inj h)
    cases hres
  · rw [exec_encodeBlock_of_true he] at h
    have hs := Host.Outcome.next.inj h
    exact ⟨t, rfl, (congrArg State.packer hs :)⟩

/-- Settles O37: the items written are the items read. -/
theorem blockRoundTrip : Obligations.BlockRoundTrip := by
  unfold Obligations.BlockRoundTrip
  intro s d s' ch w u hdcWf hdcValid hacWf hacValid hdc hac hpred hdiff hwf hexec hbits hreads
  obtain ⟨t, ht, hpacker⟩ := exec_encodeBlock_ok hexec
  obtain ⟨w', hbits', hdecode⟩ :=
    State.decodeBlock_of_encodeBlock hwf ht (hdcWf.hasCodes hdcValid) (hacWf.hasCodes hacValid) hdiff
  obtain rfl := List.append_cancel_left (hbits.symm.trans (hpacker ▸ hbits'))
  rw [exec_decodeBlock_eq, hdecode d u hdc hac hpred hreads]
  rfl

end Sys2Proof.Machine
end

section
/-! PROOFS. The quantizer (R210 to R212) and the pre-check (R227). The EncodeErrors of an MCU are collected in a list, and
what raising them does is said once. -/

namespace Sys2Proof.Machine

open Sys2Proof

/-! ## Several EncodeErrors -/

/-- An EncodeError of a channel: its cause, its channel and its `aux` (R263). -/
structure ChanError where
  cause : Cause
  chan : Chan
  aux : Byte

/-- The LOG of an error (R270), with the value of `COUNT`. -/
def ChanError.log (index : Word) (e : ChanError) : Event := .log e.cause (some e.chan) index e.aux

/-- A state after EncodeErrors raised one after another (R270, R271). -/
def State.raiseAll (es : List ChanError) (s : State) : State :=
  { s with
    status := if es = [] then s.status else s.status ||| flagEnc
    corrupt := Vector.ofFn (fun ch => s.corrupt[ch] || es.any (fun e => e.chan == ch))
    out := s.out ++ es.map (ChanError.log s.count) }

@[simp] theorem State.raiseAll_nil (s : State) : s.raiseAll [] = s := by
  unfold State.raiseAll
  congr 1
  · exact Vector.ext fun i hi => by simp
  · simp

theorem State.raiseAll_raiseAll (es es' : List ChanError) (s : State) :
    (s.raiseAll es).raiseAll es' = s.raiseAll (es ++ es') := by
  unfold State.raiseAll
  congr 1
  · cases es <;> cases es' <;> simp [BitVec.or_assoc]
  · exact Vector.ext fun i hi => by simp [Bool.or_assoc]
  · simp

/-- Raising one EncodeError is raising a list of one. -/
theorem State.raise_eq_raiseAll (s : State) (e : ChanError) (h : e.cause.kind = .encode) :
    s.raise e.cause (some e.chan) e.aux = s.raiseAll [e] := by
  rw [s.raise_recoverable e.chan e.aux (.inl h)]
  unfold State.afterBlockError State.raiseAll
  congr 1
  · rw [if_pos h]; rfl
  · refine Vector.ext fun i hi => ?_
    by_cases hch : e.chan.val = i
    · subst hch; simp
    · have hne : ¬ e.chan = ⟨i, hi⟩ := fun h => hch (congrArg Fin.val h)
      simp [hch, hne]

theorem State.raiseAll_corrupt (es : List ChanError) (s : State) (ch : Chan) :
    (s.raiseAll es).corrupt[ch] = true ↔ s.corrupt[ch] = true ∨ ∃ e ∈ es, e.chan = ch := by
  simp [State.raiseAll]

@[simp] theorem State.raiseAll_quantTable (es : List ChanError) (s : State) (ch : Chan) :
    (s.raiseAll es).quantTable ch = s.quantTable ch := rfl

@[simp] theorem State.raiseAll_coef (es : List ChanError) (s : State) : (s.raiseAll es).coef = s.coef := rfl

theorem State.raiseAll_setBlock (es : List ChanError) (s : State) (ch : Chan) (b : Block) :
    (s.raiseAll es).setBlock ch b = (s.setBlock ch b).raiseAll es := rfl

/-! ## DEQUANTIZE -/

@[simp] theorem State.setBlock_quantTable (s : State) (ch ch' : Chan) (b : Block) :
    (s.setBlock ch b).quantTable ch' = s.quantTable ch' := rfl

theorem State.setBlock_coef_ne (s : State) {ch ch' : Chan} (b : Block) (h : ch.val ≠ ch'.val) :
    (s.setBlock ch b).coef[ch'] = s.coef[ch'] :=
  Vector.getElem_set_ne ch.isLt ch'.isLt h

theorem State.setBlocks_eq (s : State) (f : Chan → Block) :
    ((s.setBlock 0 (f 0)).setBlock 1 (f 1)).setBlock 2 (f 2) = { s with coef := Vector.ofFn f } := by
  unfold State.setBlock
  congr 1
  refine Vector.ext fun i hi => ?_
  interval_cases i <;> simp

/-- What DEQUANTIZE makes of the coefficients (R210). -/
def State.dequantized (s : State) : Vector Block 3 := Vector.ofFn (fun ch => dequantBlock s.coef[ch] (s.quantTable ch))

theorem State.dequantize_eq (s : State) : s.dequantize = { s with coef := s.dequantized } := by
  have hne01 : (0 : Chan).val ≠ (1 : Chan).val := by decide
  have hne02 : (0 : Chan).val ≠ (2 : Chan).val := by decide
  have hne12 : (1 : Chan).val ≠ (2 : Chan).val := by decide
  simp only [State.dequantize, State.dequantChannel, State.setBlock_quantTable, State.setBlock_coef_ne _ _ hne01,
    State.setBlock_coef_ne _ _ hne02, State.setBlock_coef_ne _ _ hne12]
  exact s.setBlocks_eq (fun ch => dequantBlock s.coef[ch] (s.quantTable ch))

theorem State.dequantized_get (s : State) (ch : Chan) : s.dequantized[ch] = dequantBlock s.coef[ch] (s.quantTable ch) := by
  simp [State.dequantized]

/-- A product modulo 2^32 (R8, R210). -/
theorem mul_setWidth_eq_ofInt (c : Word) (q : Half) : c * q.setWidth 32 = BitVec.ofInt 32 (c.toInt * q.toNat) := by
  rw [BitVec.ofInt_mul, BitVec.ofInt_toInt, BitVec.ofInt_natCast, BitVec.ofNat_toNat]

/-- Settles O43: the product modulo 2^32, which is exact within 32 bits. -/
theorem dequantizeMultiplies : Obligations.DequantizeMultiplies := by
  unfold Obligations.DequantizeMultiplies
  intro s
  refine ⟨s.dequantized, congrArg Host.Outcome.next s.dequantize_eq, fun ch i => ?_⟩
  have hget : s.dequantized[ch][i] = BitVec.ofInt 32 ((s.coef[ch][i]).toInt * ((s.quantTable ch)[i]).toNat) := by
    rw [s.dequantized_get ch, dequantBlock_get, mul_setWidth_eq_ofInt]
  have hexact := BitVec.toInt_ofInt_eq_self (w := 32) (by decide) (n := (s.coef[ch][i]).toInt * ((s.quantTable ch)[i]).toNat)
  rw [hget]
  refine ⟨rfl, hexact, fun hsmall => hexact ?_ ?_⟩
  all_goals
    have hq : ((s.quantTable ch)[i]).toNat ≤ 65535 := Nat.le_of_lt_succ ((s.quantTable ch)[i]).isLt
    have hprod := Nat.mul_le_mul hsmall hq
    rw [← Int.natAbs_natCast ((s.quantTable ch)[i]).toNat, ← Int.natAbs_mul] at hprod
    omega

/-! ## QUANTIZE -/

/-- The zero entries of one channel's table as errors (R212). -/
def zeroDivisorsOf (ch : Chan) (q : HalfBlock) (is : List (Fin 64)) : List ChanError :=
  (is.filter (fun i => q[i] = 0)).map (fun i => ⟨.quantDivZero, ch, BitVec.ofNat 8 i.val⟩)

theorem State.raiseDivZero_eq (ch : Chan) (q : HalfBlock) (is : List (Fin 64)) (s : State) :
    State.raiseDivZero ch q is s = s.raiseAll (zeroDivisorsOf ch q is) := by
  induction is generalizing s with
  | nil => exact s.raiseAll_nil.symm
  | cons i is ih =>
    rw [State.raiseDivZero, ih]
    by_cases hq : q[i] = 0
    · rw [if_pos hq, s.raise_eq_raiseAll ⟨.quantDivZero, ch, BitVec.ofNat 8 i.val⟩ rfl, State.raiseAll_raiseAll,
        zeroDivisorsOf, zeroDivisorsOf, List.filter_cons_of_pos (p := fun i => decide (q[i] = 0)) (decide_eq_true hq)]
      rfl
    · rw [if_neg hq, zeroDivisorsOf, zeroDivisorsOf, List.filter_cons_of_neg (p := fun i => decide (q[i] = 0)) (by simpa using hq)]

/-- The zero entries of the three tables as errors, in the order of R212. -/
def State.zeroDivisors (s : State) : List ChanError :=
  (List.finRange 3).flatMap (fun ch => zeroDivisorsOf ch (s.quantTable ch) (List.finRange 64))

theorem State.zeroDivisors_log (s : State) : s.zeroDivisors.map (ChanError.log s.count) = s.zeroDivisorLogs := by
  simp only [State.zeroDivisors, zeroDivisorsOf, List.map_flatMap, List.map_map]
  rfl

theorem State.mem_zeroDivisors {s : State} {e : ChanError} (h : e ∈ s.zeroDivisors) :
    e.cause = .quantDivZero ∧ ∃ i : Fin 64, (s.quantTable e.chan)[i] = 0 := by
  obtain ⟨ch, -, h⟩ := List.mem_flatMap.mp h
  obtain ⟨i, hi, rfl⟩ := List.mem_map.mp h
  exact ⟨rfl, i, of_decide_eq_true (List.mem_filter.mp hi).2⟩

theorem State.zeroDivisors_of_zero {s : State} {ch : Chan} {i : Fin 64} (h : (s.quantTable ch)[i] = 0) :
    ∃ e ∈ s.zeroDivisors, e.chan = ch :=
  ⟨⟨.quantDivZero, ch, BitVec.ofNat 8 i.val⟩, List.mem_flatMap.mpr ⟨ch, List.mem_finRange ch,
    List.mem_map.mpr ⟨i, List.mem_filter.mpr ⟨List.mem_finRange i, decide_eq_true h⟩, rfl⟩⟩, rfl⟩

theorem State.exists_zeroDivisor_iff (s : State) (ch : Chan) :
    (∃ e ∈ s.zeroDivisors, e.chan = ch) ↔ ∃ i : Fin 64, (s.quantTable ch)[i] = 0 := by
  constructor
  · rintro ⟨e, he, rfl⟩
    exact (State.mem_zeroDivisors he).2
  · rintro ⟨i, hi⟩
    exact State.zeroDivisors_of_zero hi

/-- What QUANTIZE makes of the coefficients (R211). -/
def State.quantized (s : State) : Vector Block 3 := Vector.ofFn (fun ch => quantBlock s.coef[ch] (s.quantTable ch))

theorem State.quantized_get (s : State) (ch : Chan) : s.quantized[ch] = quantBlock s.coef[ch] (s.quantTable ch) := by
  simp [State.quantized]

/-- QUANTIZE writes the coefficients and raises its errors (R211, R212). -/
theorem State.quantize_eq (s : State) : s.quantize = State.raiseAll s.zeroDivisors { s with coef := s.quantized } := by
  have hne01 : (0 : Chan).val ≠ (1 : Chan).val := by decide
  have hne02 : (0 : Chan).val ≠ (2 : Chan).val := by decide
  have hne12 : (1 : Chan).val ≠ (2 : Chan).val := by decide
  simp only [State.quantize, State.quantChannel, State.raiseDivZero_eq, State.raiseAll_quantTable, State.raiseAll_coef,
    State.raiseAll_setBlock, State.raiseAll_raiseAll, State.setBlock_quantTable, State.setBlock_coef_ne _ _ hne01,
    State.setBlock_coef_ne _ _ hne02, State.setBlock_coef_ne _ _ hne12]
  rw [s.setBlocks_eq (fun ch => quantBlock s.coef[ch] (s.quantTable ch)), State.zeroDivisors,
    List.append_assoc, ← List.append_nil (zeroDivisorsOf 2 _ _)]
  rfl

theorem rhaz_natCast_bounds (n : Nat) {q : Nat} (hq : 0 < q) : 0 ≤ rhaz n q ∧ rhaz n q ≤ n := by
  have hquot : (2 * n + q) / (2 * q) ≤ n := by
    obtain rfl | hn := Nat.eq_zero_or_pos n
    · exact (Nat.div_eq_of_lt (by omega)).le
    · exact Nat.lt_succ_iff.mp ((Nat.div_lt_iff_lt_mul (by omega)).mpr (by nlinarith))
  rw [rhaz_natCast n hq]
  exact ⟨Int.natCast_nonneg _, Int.ofNat_le.mpr hquot⟩

/-- Rounding does not leave an interval around 0 (R12). -/
theorem rhaz_bounds {lo c hi : Int} {q : Nat} (hq : 0 < q) (hlo : lo ≤ 0) (hhi : 0 ≤ hi) (hc : lo ≤ c ∧ c ≤ hi) :
    lo ≤ rhaz c q ∧ rhaz c q ≤ hi := by
  obtain ⟨n, rfl | rfl⟩ := c.eq_nat_or_neg <;> have hn := rhaz_natCast_bounds n hq
  · omega
  · rw [rhaz_neg]
    omega

theorem quantBlock_toInt {b : Block} {q : HalfBlock} {i : Fin 64} (hq : q[i] ≠ 0) :
    ((quantBlock b q)[i]).toInt = rhaz (b[i]).toInt (q[i]).toNat := by
  have hpos : 0 < (q[i]).toNat := Nat.pos_of_ne_zero fun h => hq (BitVec.eq_of_toNat_eq h)
  have hbounds := rhaz_bounds (lo := -2 ^ 31) (hi := 2 ^ 31 - 1) hpos (by decide) (by decide)
    ⟨(b[i]).le_toInt, Int.le_sub_one_of_lt (b[i]).toInt_lt⟩
  rw [quantBlock_get, if_neg hq]
  exact BitVec.toInt_ofInt_eq_self (by decide) hbounds.1 (Int.lt_of_le_sub_one hbounds.2)

/-- Settles O44: rounded coefficients, and one error for each zero entry. -/
theorem quantizeRoundsAndLogsZeroDivisors : Obligations.QuantizeRoundsAndLogsZeroDivisors := by
  unfold Obligations.QuantizeRoundsAndLogsZeroDivisors
  intro s
  refine ⟨s.quantized, (s.raiseAll s.zeroDivisors).corrupt, (s.raiseAll s.zeroDivisors).status, ?_, ?_, ?_, ?_⟩
  · rw [← s.zeroDivisors_log]
    exact congrArg Host.Outcome.next s.quantize_eq
  · intro ch i hq
    rw [s.quantized_get ch, quantBlock_toInt hq]
  · intro ch
    rw [State.raiseAll_corrupt, s.exists_zeroDivisor_iff]
  · have hnil : s.zeroDivisors = [] ↔ ¬ ∃ (ch : Chan) (i : Fin 64), (s.quantTable ch)[i] = 0 := by
      simp only [← s.exists_zeroDivisor_iff, List.eq_nil_iff_forall_not_mem]
      exact ⟨fun h ⟨ch, e, he, _⟩ => h e he, fun h e he => h ⟨e.chan, e, he, rfl⟩⟩
    by_cases hzero : ∃ (ch : Chan) (i : Fin 64), (s.quantTable ch)[i] = 0
    · rw [if_pos hzero]
      exact if_neg (fun h => hnil.mp h hzero)
    · rw [if_neg hzero]
      exact if_pos (hnil.mpr hzero)

/-! ## The pre-check -/

section
variable (s : State) (needQuant : Bool)

theorem State.channelReady_iff (ch : Chan) :
    s.channelReady needQuant ch = true ↔
      ((s.comp[ch].td).toNat < 4 ∧ (s.dcTable ch).valid = true) ∧ ((s.comp[ch].ta).toNat < 4 ∧ (s.acTable ch).valid = true) ∧
      (needQuant = true → (s.comp[ch].tq).toNat < 4 ∧ (s.qt[slotOf (s.comp[ch].tq)]).valid = true) := by
  simp only [State.channelReady, State.huffIdsExist, Bool.and_eq_true, Bool.or_eq_true, Bool.not_eq_true', decide_eq_true_eq]
  cases needQuant <;> simp [Config.nht, Config.nqt] <;> tauto

theorem State.precheckFailure_eq_none_iff :
    s.precheckFailure needQuant = none ↔ s.ncomp = 3 ∧ ∀ ch : Chan, s.channelReady needQuant ch = true := by
  simp only [Fin.forall_fin_succ]
  unfold State.precheckFailure
  split_ifs <;> simp_all

theorem State.precheckFailure_of_ncomp {s : State} (h : s.ncomp ≠ 3) : s.precheckFailure needQuant = some 3 := if_pos h

theorem State.precheckFailure_of_channel {s : State} {ch : Chan} (hn : s.ncomp = 3) (hch : ¬ s.channelReady needQuant ch = true)
    (hbefore : ∀ ch' : Chan, ch' < ch → s.channelReady needQuant ch' = true) :
    s.precheckFailure needQuant = some (BitVec.ofNat 8 ch.val) := by
  rw [Bool.not_eq_true] at hch
  unfold State.precheckFailure
  rw [if_neg (not_not.mpr hn)]
  fin_cases ch
  · exact if_pos hch
  · rw [if_neg (by rw [hbefore 0 (by decide)]; decide)]
    exact if_pos hch
  · rw [if_neg (by rw [hbefore 0 (by decide)]; decide), if_neg (by rw [hbefore 1 (by decide)]; decide)]
    exact if_pos hch

end

theorem exec_precheck_of_some {s : State} {forCdata : Bool} {aux : Byte}
    (h : s.precheckFailure (s.needsQuant forCdata) = some aux) :
    exec (.precheck forCdata) s = .next (State.returning .fail (s.afterFatal .missingSetup aux)) := by
  simp only [exec, execPrecheck, h, s.raise_fatal (c := .missingSetup) aux rfl]
  rfl

/-- Settles O46, by the channels in order. -/
theorem precheckVerdict : Obligations.PrecheckVerdict := by
  unfold Obligations.PrecheckVerdict
  intro s forCdata q hq
  have hneeds : s.needsQuant forCdata = q := hq.symm
  dsimp only
  simp only [← s.channelReady_iff q]
  refine ⟨s.precheckFailure_eq_none_iff q, fun hn hall => ?_, fun hn => ?_, fun ch hn hch hbefore => ?_⟩
  · simp only [exec, execPrecheck, hneeds, (s.precheckFailure_eq_none_iff q).mpr ⟨hn, hall⟩]
    rfl
  · exact exec_precheck_of_some (hneeds ▸ State.precheckFailure_of_ncomp q hn)
  · exact exec_precheck_of_some (hneeds ▸ State.precheckFailure_of_channel q hn hch hbefore)

theorem exec_mcu_of_scanActive {s : State} (y cb cr : HalfBlock) (h : s.scState = .scanActive) :
    exec (.mcu y cb cr) s = .next (s.mcu y cb cr) :=
  congrArg Host.Outcome.next (State.onMessage_of_accept _ (by simp [State.verdict, verdict, h]))

theorem exec_cdata_of_scanActive {s : State} (data : List Byte) (h : s.scState = .scanActive) (hc : s.count = 0) :
    exec (.cdata data) s = .next (s.cdata data) :=
  congrArg Host.Outcome.next (State.onMessage_of_accept _ (by simp [State.verdict, verdict, h, hc]))

/-- Settles O47: the pre-check comes first. -/
theorem missingSetupIsAViolation : Obligations.MissingSetupIsAViolation := by
  unfold Obligations.MissingSetupIsAViolation
  intro s aux hopen
  constructor
  · intro hfail y cb cr
    have hfail' : s.precheckFailure (s.needsQuant false) = some aux := hfail
    rw [exec_mcu_of_scanActive y cb cr hopen, State.mcu, hfail']
    exact congrArg Host.Outcome.next (s.raise_fatal aux rfl)
  · intro hc hfail data
    have hfail' : s.precheckFailure (s.needsQuant true) = some aux := hfail
    rw [exec_cdata_of_scanActive data hopen hc, State.cdata, hfail']
    exact congrArg Host.Outcome.next (s.raise_fatal aux rfl)

end Sys2Proof.Machine
end

section
/-! PROOFS. The MCU message (R228, R230): its three ENCODE_BLOCKs in one update, its errors in one list. -/

namespace Sys2Proof.Machine

open Sys2Proof

/-! ## ENCODE_BLOCK in one update -/

section
variable (s : State) (ch : Chan)

/-- What ENCODE_BLOCK leaves in the Packer, and its error (R176 to R182). -/
def State.blockOutcome : Packer × List ChanError :=
  match (s.dcTable ch).lookup (BitVec.ofNat 8 (categoryOf (s.dcDiff ch))) with
  | none => (s.packer, [⟨.noDcSymbol, ch, BitVec.ofNat 8 (categoryOf (s.dcDiff ch))⟩])
  | some d =>
    let r := (s.packer.putCoded d
      ((magField (s.dcDiff ch) (categoryOf (s.dcDiff ch))).toNat, categoryOf (s.dcDiff ch))).writeItems (s.acTable ch)
        (acItems s.coef[ch])
    (r.1, r.2.toList.map (fun it => ⟨it.cause, ch, it.aux⟩))

/-- The errors of a block: none, or one. -/
def State.blockErrors : List ChanError := (s.blockOutcome ch).2

/-- The state after a block but for its error: the Packer and the predictor (R176, R182). -/
def State.blockWritten : State :=
  { s with packer := (s.blockOutcome ch).1, pred := s.pred.set ch s.coef[ch][(0 : Fin 64)] }

theorem State.encodeBlock_eq :
    s.encodeBlock ch = ((s.blockErrors ch).isEmpty, (s.blockWritten ch).raiseAll (s.blockErrors ch)) := by
  have hc := categoryOf_isCategory (s.dcDiff ch)
  unfold State.blockErrors State.blockWritten State.blockOutcome
  cases hl : (s.dcTable ch).lookup (BitVec.ofNat 8 (categoryOf (s.dcDiff ch))) with
  | none =>
    rw [State.encodeBlock_of_absent s ch hc hl]
    exact congrArg (Prod.mk false) (((State.raise_recoverable _ ch _ (.inl rfl)).symm).trans
      (State.raise_eq_raiseAll _ ⟨.noDcSymbol, ch, _⟩ rfl))
  | some d =>
    rw [State.encodeBlock_of_lookup s ch hc hl]
    dsimp only
    generalize Packer.writeItems _ _ _ = z
    obtain ⟨p, _ | it⟩ := z
    · exact congrArg (Prod.mk true) (State.raiseAll_nil _).symm
    · exact congrArg (Prod.mk false) (((State.raise_recoverable _ ch _ (.inl it.cause_kind.1)).symm).trans
        (State.raise_eq_raiseAll _ ⟨it.cause, ch, it.aux⟩ it.cause_kind.1))

theorem State.blockOutcome_extends : s.packer.Extends (s.blockOutcome ch).1 := by
  unfold State.blockOutcome
  split
  · exact Packer.Extends.refl _
  · exact (Packer.putCoded_extends _ _ _).trans (Packer.writeItems_extends _ _ _)

theorem State.blockErrors_length_le : (s.blockErrors ch).length ≤ 1 := by
  unfold State.blockErrors State.blockOutcome
  split
  · exact le_rfl
  · rw [List.length_map]
    exact Option.length_toList_le

theorem State.blockErrors_kind {e : ChanError} (h : e ∈ s.blockErrors ch) :
    e.cause.kind = .encode ∧ e.cause ≠ .quantDivZero := by
  unfold State.blockErrors State.blockOutcome at h
  split at h
  · obtain rfl := List.mem_singleton.mp h
    exact ⟨rfl, Cause.noConfusion⟩
  · obtain ⟨it, -, rfl⟩ := List.mem_map.mp h
    exact it.cause_kind

/-- A block depends on its tables, its coefficients, its predictor and the Packer only. -/
theorem State.raiseAll_blockWritten (es : List ChanError) :
    (s.raiseAll es).blockWritten ch = (s.blockWritten ch).raiseAll es := rfl

theorem State.raiseAll_blockErrors (es : List ChanError) : (s.raiseAll es).blockErrors ch = s.blockErrors ch := rfl

theorem State.exec_encodeBlock_eq :
    exec (.encodeBlock ch) s = .next (State.returning (if (s.blockErrors ch).isEmpty then .ok else .fail)
      ((s.blockWritten ch).raiseAll (s.blockErrors ch))) := by
  cases h : (s.blockErrors ch).isEmpty
  · exact exec_encodeBlock_of_false (by rw [s.encodeBlock_eq, h])
  · exact exec_encodeBlock_of_true (by rw [s.encodeBlock_eq, h])

end

/-! ## The three blocks of an MCU -/

section
variable (s : State)

/-- The state after the three blocks of an MCU but for their errors. -/
def State.blocksWritten : State := ((s.blockWritten 0).blockWritten 1).blockWritten 2

/-- The errors of the three blocks of an MCU, in order. -/
def State.blocksErrors : List ChanError :=
  s.blockErrors 0 ++ (s.blockWritten 0).blockErrors 1 ++ ((s.blockWritten 0).blockWritten 1).blockErrors 2

theorem State.blocksWritten_frame : ∃ p pr, s.blocksWritten = { s with packer := p, pred := pr } := ⟨_, _, rfl⟩

theorem State.encodeMcu_eq : s.encodeMcu = s.blocksWritten.raiseAll s.blocksErrors := by
  simp only [State.encodeMcu, State.encodeBlock_eq, State.raiseAll_blockWritten, State.raiseAll_blockErrors,
    State.raiseAll_raiseAll, State.blocksWritten, State.blocksErrors]

theorem State.blocksWritten_extends : s.packer.Extends s.blocksWritten.packer :=
  ((s.blockOutcome_extends 0).trans ((s.blockWritten 0).blockOutcome_extends 1)).trans
    (((s.blockWritten 0).blockWritten 1).blockOutcome_extends 2)

theorem State.blocksErrors_length_le : s.blocksErrors.length ≤ 3 := by
  have h0 := s.blockErrors_length_le 0
  have h1 := (s.blockWritten 0).blockErrors_length_le 1
  have h2 := ((s.blockWritten 0).blockWritten 1).blockErrors_length_le 2
  rw [State.blocksErrors, List.length_append, List.length_append]
  omega

theorem State.blocksErrors_kind {e : ChanError} (h : e ∈ s.blocksErrors) :
    e.cause.kind = .encode ∧ e.cause ≠ .quantDivZero := by
  obtain (h | h) | h := (List.mem_append.mp h).imp_left List.mem_append.mp
  · exact State.blockErrors_kind _ _ h
  · exact State.blockErrors_kind _ _ h
  · exact State.blockErrors_kind _ _ h

theorem State.blocksWritten_pred (ch : Chan) : s.blocksWritten.pred[ch] = s.coef[ch][(0 : Fin 64)] := by
  have hpred : s.blocksWritten.pred
      = ((s.pred.set 0 s.coef[(0 : Chan)][(0 : Fin 64)]).set 1 s.coef[(1 : Chan)][(0 : Fin 64)]).set 2
          s.coef[(2 : Chan)][(0 : Fin 64)] := rfl
  rw [hpred]
  fin_cases ch <;> simp

theorem State.raiseAll_blocksWritten (es : List ChanError) : (s.raiseAll es).blocksWritten = s.blocksWritten.raiseAll es := by
  simp only [State.blocksWritten, State.raiseAll_blockWritten]

theorem State.raiseAll_blocksErrors (es : List ChanError) : (s.raiseAll es).blocksErrors = s.blocksErrors := by
  simp only [State.blocksErrors, State.raiseAll_blockWritten, State.raiseAll_blockErrors]

theorem State.returning_blockWritten (r : Res) (ch : Chan) :
    (s.returning r).blockWritten ch = State.returning r (s.blockWritten ch) := rfl

/-- The three ENCODE_BLOCKs and FINALIZE, run on their own one after another (log entry 3). -/
theorem State.exec_blocks : ∃ t0 t1 t2 t3, exec (.encodeBlock 0) s = .next t0 ∧ exec (.encodeBlock 1) t0 = .next t1 ∧
    exec (.encodeBlock 2) t1 = .next t2 ∧ exec .finalize t2 = .next t3 ∧ t2.packer = s.blocksWritten.packer ∧
    t3.packer = s.blocksWritten.packer.finalize := by
  refine ⟨_, _, _, _, s.exec_encodeBlock_eq 0, State.exec_encodeBlock_eq _ 1, State.exec_encodeBlock_eq _ 2, exec_finalize _, ?_⟩
  simp only [State.returning_blockWritten, State.raiseAll_blockWritten]
  exact ⟨rfl, rfl⟩

end

/-! ## The MCU step -/

section
variable (y cb cr : HalfBlock) (s : State)

/-- The state with an MCU's coefficients loaded (R228). -/
def State.loadMcu : State := { s.clearCorrupt with coef := #v[extendBlock y, extendBlock cb, extendBlock cr] }

/-- The coefficients an MCU encodes: quantized where `QUANT_ON_ENCODE` asks for it (R211). -/
def State.mcuCoef : Vector Block 3 := if s.params.quantOnEncode then (s.loadMcu y cb cr).quantized else (s.loadMcu y cb cr).coef

/-- The state whose three blocks an MCU encodes. -/
def State.mcuStart : State := { s.clearCorrupt with coef := s.mcuCoef y cb cr }

/-- The errors of an MCU, in order: zero divisors, then its blocks' (R211, R228). -/
def State.mcuErrors : List ChanError :=
  (if s.params.quantOnEncode then s.zeroDivisors else []) ++ (s.mcuStart y cb cr).blocksErrors

/-- The state after the three blocks of an MCU, one MCU counted. -/
def State.mcuEncoded : State := ((s.mcuStart y cb cr).blocksWritten.raiseAll (s.mcuErrors y cb cr)).countMcu

theorem State.mcuEncoded_eq :
    s.mcuEncoded y cb cr = { s with
      count := s.count + 1
      pred := (s.mcuStart y cb cr).blocksWritten.pred
      coef := s.mcuCoef y cb cr
      packer := (s.mcuStart y cb cr).blocksWritten.packer
      status := if s.mcuErrors y cb cr = [] then s.status else s.status ||| flagEnc
      corrupt := (s.mcuEncoded y cb cr).corrupt
      out := s.out ++ (s.mcuErrors y cb cr).map (ChanError.log s.count) } := by
  obtain ⟨p, pr, h⟩ := (s.mcuStart y cb cr).blocksWritten_frame
  rw [State.mcuEncoded, h]
  simp only [State.countMcu, State.raiseAll, State.mcuStart, State.clearCorrupt]

theorem State.mcuBody_eq :
    s.mcuBody y cb cr
      = if s.count + 1 = s.expected then (s.mcuEncoded y cb cr).completeEnc else s.mcuEncoded y cb cr := by
  have hquant : (if (s.loadMcu y cb cr).params.quantOnEncode then (s.loadMcu y cb cr).quantize else s.loadMcu y cb cr)
      = (s.mcuStart y cb cr).raiseAll (if s.params.quantOnEncode then s.zeroDivisors else []) := by
    cases hq : s.params.quantOnEncode
    · have hq' : ¬ (s.loadMcu y cb cr).params.quantOnEncode = true := fun h => Bool.false_ne_true (hq.symm.trans h)
      rw [State.mcuStart, State.mcuCoef, hq, if_neg hq', if_neg Bool.false_ne_true, if_neg Bool.false_ne_true,
        State.raiseAll_nil]
      rfl
    · rw [State.mcuStart, State.mcuCoef, hq, if_pos rfl, if_pos rfl]
      exact (if_pos hq).trans (State.quantize_eq _)
  have henc : State.encodeMcu ((s.mcuStart y cb cr).raiseAll (if s.params.quantOnEncode then s.zeroDivisors else []))
      = (s.mcuStart y cb cr).blocksWritten.raiseAll (s.mcuErrors y cb cr) := by
    rw [State.encodeMcu_eq, State.raiseAll_blocksWritten, State.raiseAll_blocksErrors, State.raiseAll_raiseAll, State.mcuErrors]
  unfold State.mcuBody
  rw [← State.loadMcu]
  dsimp only
  rw [hquant, henc, ← State.mcuEncoded]
  have hcount : (s.mcuEncoded y cb cr).count = s.count + 1 := by rw [State.mcuEncoded_eq]
  have hexpected : (s.mcuEncoded y cb cr).expected = s.expected := by rw [State.mcuEncoded_eq]
  rw [hcount, hexpected]

theorem State.countMcu_corrupt (s : State) : s.countMcu.corrupt = s.corrupt := rfl

theorem State.mcuEncoded_corrupt (ch : Chan) :
    (s.mcuEncoded y cb cr).corrupt[ch] = true ↔ ∃ e ∈ s.mcuErrors y cb cr, e.chan = ch := by
  obtain ⟨p, pr, h⟩ := (s.mcuStart y cb cr).blocksWritten_frame
  have hclear : (s.mcuStart y cb cr).blocksWritten.corrupt[ch] = false := by
    rw [h]
    simp [State.mcuStart, State.clearCorrupt]
  rw [State.mcuEncoded, State.countMcu_corrupt, State.raiseAll_corrupt, hclear]
  simp

/-- The MCU step in one update but for the state of the scan, the Packer and the events, which the hand-off after the last MCU
changes too (R228, R230). -/
theorem State.mcuBody_frame :
    s.mcuBody y cb cr = { s with
      scState := (s.mcuBody y cb cr).scState
      count := s.count + 1
      pred := (s.mcuStart y cb cr).blocksWritten.pred
      coef := s.mcuCoef y cb cr
      packer := (s.mcuBody y cb cr).packer
      status := if s.mcuErrors y cb cr = [] then s.status else s.status ||| flagEnc
      corrupt := (s.mcuEncoded y cb cr).corrupt
      out := (s.mcuBody y cb cr).out } := by
  rw [State.mcuBody_eq, State.mcuEncoded_eq]
  split
  · rw [State.completeEnc_eq]
  · rfl

theorem State.mcuBody_open (h : s.count + 1 ≠ s.expected) :
    (s.mcuBody y cb cr).scState = s.scState ∧ (s.mcuBody y cb cr).packer = (s.mcuStart y cb cr).blocksWritten.packer ∧
    (s.mcuBody y cb cr).out = s.out ++ (s.mcuErrors y cb cr).map (ChanError.log s.count) := by
  rw [State.mcuBody_eq, if_neg h, State.mcuEncoded_eq]
  exact ⟨rfl, rfl, rfl⟩

theorem State.mcuBody_last (h : s.count + 1 = s.expected) :
    (s.mcuBody y cb cr).scState = .idle ∧ (s.mcuBody y cb cr).packer = Packer.reset ∧
    (s.mcuBody y cb cr).out = s.out ++ (s.mcuErrors y cb cr).map (ChanError.log s.count)
      ++ [.scanbuf (s.mcuStart y cb cr).blocksWritten.packer.finalize.obuf s.hdr.height s.hdr.width s.hdr.filename
          s.hdr.frameType s.hdr.precision s.hdr.ss s.hdr.se s.hdr.sa] := by
  rw [State.mcuBody_eq, if_pos h, State.mcuEncoded_eq, State.completeEnc_eq]
  exact ⟨rfl, rfl, rfl⟩

theorem State.loadMcu_coef (ch : Chan) (i : Fin 64) :
    (s.loadMcu y cb cr).coef[ch][i] = (((#v[y, cb, cr] : Vector HalfBlock 3)[ch])[i]).signExtend 32 := by
  fin_cases ch <;> exact extendBlock_get _ i

theorem State.mcuCoef_of_plain (h : s.params.quantOnEncode = false) (ch : Chan) (i : Fin 64) :
    (s.mcuCoef y cb cr)[ch][i] = (((#v[y, cb, cr] : Vector HalfBlock 3)[ch])[i]).signExtend 32 := by
  rw [State.mcuCoef, if_neg (by simp [h]), State.loadMcu_coef]

theorem State.mcuCoef_of_quant (h : s.params.quantOnEncode = true) (ch : Chan) :
    (s.mcuCoef y cb cr)[ch] = quantBlock (s.loadMcu y cb cr).coef[ch] (s.quantTable ch) := by
  rw [State.mcuCoef, if_pos h, State.quantized_get]
  rfl

end

theorem State.mcu_of_ready {s : State} (y cb cr : HalfBlock) (h : s.precheckFailure (s.needsQuant false) = none) :
    s.mcu y cb cr = s.mcuBody y cb cr := by
  rw [State.mcu, h]

/-- A list of errors names a channel exactly when its LOGs do. -/
theorem exists_chan_iff_log (es : List ChanError) (index : Word) (ch : Chan) :
    (∃ e ∈ es, e.chan = ch) ↔ ∃ c aux, Event.log c (some ch) index aux ∈ es.map (ChanError.log index) := by
  simp only [List.mem_map, ChanError.log, Event.log.injEq, Option.some.injEq]
  constructor
  · rintro ⟨e, he, rfl⟩
    exact ⟨e.cause, e.aux, e, he, rfl, rfl, True.intro, rfl⟩
  · rintro ⟨c, aux, e, he, -, hch, -⟩
    exact ⟨e, he, hch⟩

/-- Settles O48: the MCU step in one update. -/
theorem mcuEncodesAndCounts : Obligations.McuEncodesAndCounts := by
  unfold Obligations.McuEncodesAndCounts
  intro s y cb cr hopen hready
  have hexec : exec (.mcu y cb cr) s = .next (s.mcuBody y cb cr) := by
    rw [exec_mcu_of_scanActive y cb cr hopen, State.mcu_of_ready y cb cr hready]
  have hframe := s.mcuBody_frame y cb cr
  have hopen' := s.mcuBody_open y cb cr
  have hlast := s.mcuBody_last y cb cr
  generalize s.mcuBody y cb cr = t at hexec hframe hopen' hlast
  have hcoef : t.coef = s.mcuCoef y cb cr := congrArg State.coef hframe
  have hpred (ch : Chan) : t.pred[ch] = t.coef[ch][(0 : Fin 64)] := by
    rw [show t.pred = _ from congrArg State.pred hframe, State.blocksWritten_pred, hcoef]
    rfl
  have hlogs : (s.mcuErrors y cb cr).map (ChanError.log s.count)
      = (if s.params.quantOnEncode then s.zeroDivisorLogs else [])
        ++ (s.mcuStart y cb cr).blocksErrors.map (ChanError.log s.count) := by
    rw [State.mcuErrors, List.map_append, apply_ite (List.map _), s.zeroDivisors_log, List.map_nil]
  have hext : s.packer.Extends (s.mcuStart y cb cr).blocksWritten.packer := (s.mcuStart y cb cr).blocksWritten_extends
  obtain ⟨t0, t1, t2, t3, h0, h1, h2, h3, hp2, hp3⟩ := ({ s with coef := s.mcuCoef y cb cr } : State).exec_blocks
  replace hp2 : t2.packer = (s.mcuStart y cb cr).blocksWritten.packer := hp2
  replace hp3 : t3.packer = (s.mcuStart y cb cr).blocksWritten.packer.finalize := hp3
  rw [← hcoef] at h0
  refine ⟨t, t0, t1, t2, t3, _, _, hexec, congrArg State.count hframe, hlogs, ?_, ?_, ?_, fun ch => ?_, h0, h1, h2, h3,
    hp2 ▸ hext.1, hp2 ▸ hext.2, fun hmore => ?_, fun hend => ?_, fun ch i => ⟨fun hq => ?_, fun hq hne => ?_⟩, hpred, ?_⟩
  · rw [List.length_map]
    exact State.blocksErrors_length_le _
  · intro e he
    obtain ⟨err, herr, rfl⟩ := List.mem_map.mp he
    obtain ⟨hkind, hquant⟩ := State.blocksErrors_kind _ herr
    exact ⟨err.cause, err.chan, err.aux, rfl, hkind, hquant⟩
  · simp only [List.map_eq_nil_iff]
    exact congrArg State.status hframe
  · rw [show t.corrupt = _ from congrArg State.corrupt hframe, State.mcuEncoded_corrupt]
    exact exists_chan_iff_log _ _ ch
  · obtain ⟨hstate, hpacker, hout⟩ := hopen' hmore
    exact ⟨hstate.trans hopen, hout, hpacker.trans hp2.symm⟩
  · obtain ⟨hstate, hpacker, hout⟩ := hlast hend
    exact ⟨hstate, hpacker, by rw [hp3, hout]⟩
  · rw [hcoef, State.mcuCoef_of_plain y cb cr s hq]
  · rw [hcoef, State.mcuCoef_of_quant y cb cr s hq, quantBlock_toInt hne, State.loadMcu_coef,
      BitVec.toInt_signExtend_of_le (by decide)]
  · rw [hframe]

end Sys2Proof.Machine
end

section
/-! PROOFS. The CDATA message (R229, R231): what its loop can write, and the events it sends. -/

namespace Sys2Proof.Machine

open Sys2Proof

/-- `u` and `st` are Unpacker and `STATUS` in the course of decoding: the buffer stays, `STATUS` only gains flags and no fatal one,
the Unpacker stays well formed, and a marker held is a marker recorded (R27, R29, R40). -/
structure UnpackTo (s : State) (u : Unpacker) (st : BitVec 6) : Prop where
  ibuf : u.ibuf = s.unp.ibuf
  status : ∃ f : BitVec 6, st = s.status ||| f ∧ f.getLsbD 0 = false ∧ f.getLsbD 3 = false
  wf : s.unp.wf → u.wf
  recorded : (s.unp.marker ≠ 0 → s.status.getLsbD 4 = true) → u.marker ≠ 0 → st.getLsbD 4 = true

theorem ReadTo.unpackTo {s : State} {u : Unpacker} {st : BitVec 6} (h : ReadTo s u st) : UnpackTo s u st where
  ibuf := h.ibuf
  status := by
    obtain hst | hst := h.status
    · exact ⟨0, by rw [hst, BitVec.ofNat_eq_ofNat, BitVec.or_zero], by decide, by decide⟩
    · exact ⟨flagMrk, hst, by decide, by decide⟩
  wf := h.wf
  recorded := h.recorded

/-- `t` is `s` after decoding that sent the events `evs` and left `COUNT` at `n`. -/
def DecodesTo (s : State) (evs : List Event) (n : Word) (t : State) : Prop :=
  ∃ u st co cf pr, UnpackTo s u st ∧ t = { s with
    unp := u, status := st, corrupt := co, coef := cf, pred := pr, out := s.out ++ evs, count := n }

theorem UnpackTo.trans {s t : State} {u : Unpacker} {st : BitVec 6} (h : UnpackTo s t.unp t.status) (h' : UnpackTo t u st) :
    UnpackTo s u st where
  ibuf := h'.ibuf.trans h.ibuf
  status := by
    obtain ⟨f, hf, hf0, hf3⟩ := h.status
    obtain ⟨f', hf', hf0', hf3'⟩ := h'.status
    exact ⟨f ||| f', by rw [hf', hf, BitVec.or_assoc], by rw [BitVec.getLsbD_or, hf0, hf0']; rfl,
      by rw [BitVec.getLsbD_or, hf3, hf3']; rfl⟩
  wf hwf := h'.wf (h.wf hwf)
  recorded hs := h'.recorded (h.recorded hs)

theorem DecodesTo.trans {s t u : State} {evs evs' : List Event} {n n' : Word} (h : DecodesTo s evs n t)
    (h' : DecodesTo t evs' n' u) : DecodesTo s (evs ++ evs') n' u := by
  obtain ⟨_, _, _, _, _, hread, rfl⟩ := h
  obtain ⟨_, _, _, _, _, hread', rfl⟩ := h'
  exact ⟨_, _, _, _, _, hread.trans hread', by rw [List.append_assoc]⟩

/-- Changing coefficients and `CORRUPT`, sending an event, counting an MCU. -/
theorem DecodesTo.of_frame (s : State) (co : Vector Bool 3) (cf : Vector Block 3) (evs : List Event) (n : Word) :
    DecodesTo s evs n { s with corrupt := co, coef := cf, out := s.out ++ evs, count := n } :=
  ⟨_, _, _, _, _, (ReadTo.refl s).unpackTo, rfl⟩

theorem DecodesTo.count_eq {s t : State} {evs : List Event} {n : Word} (h : DecodesTo s evs n t) : t.count = n := by
  obtain ⟨_, _, _, _, _, -, rfl⟩ := h
  rfl

/-- A LOG of a DecodeError (R263). -/
def DecodeLog (e : Event) : Prop := ∃ c ch index aux, e = .log c (some ch) index aux ∧ c.kind = .decode

theorem filterMap_blocksIndex_of_logs {evs : List Event} (h : ∀ e ∈ evs, DecodeLog e) : evs.filterMap blocksIndex = [] := by
  refine List.filterMap_eq_nil_iff.mpr fun e he => ?_
  obtain ⟨c, ch, index, aux, rfl, -⟩ := h e he
  rfl

/-- DECODE_BLOCK sends at most a LOG of a DecodeError and counts nothing (R202). -/
theorem State.decodeBlock_decodesTo (ch : Chan) (s : State) :
    ∃ evs, (∀ e ∈ evs, DecodeLog e) ∧ DecodesTo s evs s.count (s.decodeBlock ch).2 := by
  obtain ⟨t0, ⟨u, b, p, st, hread, rfl⟩, ⟨-, ht⟩ | ⟨-, c, aux, hc, ht⟩⟩ := s.decodeBlock_end ch
  · rw [ht]
    exact ⟨[], by simp, _, _, _, _, _, hread.unpackTo, by rw [List.append_nil]⟩
  · refine ⟨[.log c (some ch) s.count aux], ?_, ?_⟩
    · intro e he
      exact ⟨c, ch, s.count, aux, List.mem_singleton.mp he, hc⟩
    · have hflag : UnpackTo { s with unp := u, status := st } u (st ||| 0b000100#6) :=
        ⟨rfl, ⟨_, rfl, by decide, by decide⟩, id, fun hs hm => by simp [hs hm]⟩
      rw [ht, State.afterBlockError, if_neg (by rw [hc]; decide)]
      exact ⟨_, _, _, _, _, hread.unpackTo.trans hflag, rfl⟩

/-- One round of the loop sends LOGs of DecodeErrors and the MCU's BLOCKS, and counts one (R229). -/
theorem State.decodeMcu_decodesTo (s : State) :
    ∃ logs b0 b1 b2 co, (∀ e ∈ logs, DecodeLog e) ∧
      DecodesTo s (logs ++ [.blocks s.count b0 b1 b2 co]) (s.count + 1) s.decodeMcu := by
  obtain ⟨e0, hlog0, h0⟩ := s.clearCorrupt.decodeBlock_decodesTo 0
  obtain ⟨e1, hlog1, h1⟩ := (State.decodeBlock 0 s.clearCorrupt).2.decodeBlock_decodesTo 1
  obtain ⟨e2, hlog2, h2⟩ := (State.decodeBlock 1 (State.decodeBlock 0 s.clearCorrupt).2).2.decodeBlock_decodesTo 2
  unfold State.decodeMcu
  dsimp only
  have hclear : DecodesTo s [] s.count s.clearCorrupt := by
    have h := DecodesTo.of_frame s (Vector.replicate 3 false) s.coef [] s.count
    rwa [List.append_nil] at h
  have h := ((hclear.trans h0).trans h1).trans h2
  rw [h1.count_eq, h0.count_eq] at h
  generalize (State.decodeBlock 2 _).2 = t at h
  have hcount : t.count = s.count := h.count_eq
  rw [t.dequantize_eq, ← hcount]
  refine ⟨[] ++ e0 ++ e1 ++ e2, _, _, _, _, ?_, h.trans (DecodesTo.of_frame t t.corrupt t.dequantized
    [.blocks t.count t.dequantized[(0 : Chan)] t.dequantized[(1 : Chan)] t.dequantized[(2 : Chan)] t.corrupt] (t.count + 1))⟩
  intro e he
  simp only [List.nil_append, List.mem_append] at he
  obtain (he | he) | he := he
  · exact hlog0 e he
  · exact hlog1 e he
  · exact hlog2 e he

/-- The loop sends one BLOCKS for each round, numbered on from `COUNT`, with LOGs of DecodeErrors between (R229). -/
theorem State.decodeMcus_decodesTo (n : Nat) (s : State) :
    ∃ evs, (∀ e ∈ evs, (blocksIndex e).isSome = true ∨ DecodeLog e) ∧
      evs.filterMap blocksIndex = (List.range n).map (fun i => s.count + BitVec.ofNat 32 i) ∧
      DecodesTo s evs (s.count + BitVec.ofNat 32 n) (State.decodeMcus n s) := by
  induction n generalizing s with
  | zero =>
    refine ⟨[], by simp, rfl, ?_⟩
    have h := DecodesTo.of_frame s s.corrupt s.coef [] s.count
    rw [List.append_nil] at h
    rwa [BitVec.add_zero]
  | succ n ih =>
    obtain ⟨logs, b0, b1, b2, co, hlogs, hround⟩ := s.decodeMcu_decodesTo
    obtain ⟨evs, hevs, hnumbers, hrest⟩ := ih s.decodeMcu
    have hcount : s.decodeMcu.count = s.count + 1 := hround.count_eq
    have hnext (i : Nat) : s.count + 1 + BitVec.ofNat 32 i = s.count + BitVec.ofNat 32 (i + 1) := by
      rw [BitVec.add_assoc, BitVec.add_comm 1, BitVec.ofNat_add]
      rfl
    rw [hcount] at hnumbers hrest
    simp only [hnext] at hnumbers hrest
    refine ⟨_, ?_, ?_, hround.trans hrest⟩
    · intro e he
      simp only [List.mem_append, List.mem_singleton] at he
      obtain (he | rfl) | he := he
      · exact .inr (hlogs e he)
      · exact .inl rfl
      · exact hevs e he
    · rw [List.filterMap_append, List.filterMap_append, filterMap_blocksIndex_of_logs hlogs, hnumbers, List.range_succ_eq_map]
      simp [blocksIndex]

/-- The state with a scan's data in `IBUF` (R229). -/
def State.loadSegment (data : List Byte) (s : State) : State := { s with unp := { s.unp with ibuf := data } }

/-- CDATA in one update (R229, R231). -/
theorem State.cdataBody_decodesTo (data : List Byte) {s : State} (hc : s.count = 0) :
    ∃ evs t, (∀ e ∈ evs, (blocksIndex e).isSome = true ∨ DecodeLog e) ∧
      evs.filterMap blocksIndex = (List.range s.expected.toNat).map (BitVec.ofNat 32) ∧
      DecodesTo (s.loadSegment data) evs s.expected t ∧
      s.cdataBody data = { t with scState := .idle, out := t.out ++ [.scandone t.expected] } := by
  obtain ⟨evs, hevs, hnumbers, hto⟩ := State.decodeMcus_decodesTo s.expected.toNat (s.loadSegment data)
  have hzero : (s.loadSegment data).count = 0#32 := hc
  simp only [hzero, BitVec.zero_add, BitVec.ofNat_toNat, BitVec.setWidth_eq] at hnumbers hto
  refine ⟨evs, _, hevs, hnumbers, hto, ?_⟩
  have hrounds : (s.loadSegment data).expected.toNat - (s.loadSegment data).count.toNat = s.expected.toNat := by
    rw [hzero]
    rfl
  rw [State.cdataBody, ← State.loadSegment, hrounds]
  rfl

/-- Settles O49, by what the CDATA loop sends. -/
theorem cdataDecodesTheWholeScan : Obligations.CdataDecodesTheWholeScan := by
  unfold Obligations.CdataDecodesTheWholeScan
  intro s data hopen hc hready
  have hready' : s.precheckFailure (s.needsQuant true) = none := hready
  obtain ⟨evs, t, hevs, hnumbers, ⟨u, st, co, cf, pr, hread, rfl⟩, hbody⟩ := State.cdataBody_decodesTo data hc
  refine ⟨s.cdataBody data, evs, ?_, ?_⟩
  · rw [exec_cdata_of_scanActive data hopen hc, State.cdata, hready']
  · rw [hbody]
    exact ⟨rfl, rfl, hread.ibuf, rfl, hnumbers, hevs, rfl⟩

end Sys2Proof.Machine
end

section
/-! PROOFS. The invariant of the states between steps (R24, R26, R30, R34 to R37, R39, R40, R81, R176, R224, R230, R272): power-on
reset meets it, and each message keeps it. -/

namespace Sys2Proof.Machine

open Sys2Proof

/-! ## Power-on reset -/

/-- Settles O53, register by register. -/
theorem resetIsPowerOn : Obligations.ResetIsPowerOn := by
  unfold Obligations.ResetIsPowerOn
  dsimp only
  have hhuff : ∀ (cls : HuffClass) (t : SlotId), (State.reset.huff cls t).valid = false := by
    intro cls
    cases cls <;> decide
  exact ⟨rfl, rfl, rfl, rfl, rfl, rfl, rfl, rfl, rfl, by decide, hhuff, rfl, rfl, rfl, rfl, rfl, rfl, rfl⟩

/-- Settles O54: no scan is open, no slot is valid, Packer and Unpacker are empty. -/
theorem resetSatisfiesInvariant : Obligations.ResetSatisfiesInvariant := by
  unfold Obligations.ResetSatisfiesInvariant
  intro q records
  have hqt : ∀ t : SlotId, ((State.reset.qt)[t]).valid = false := by decide
  have hhuff : ∀ (cls : HuffClass) (t : SlotId), (State.reset.huff cls t).valid = false := by
    intro cls
    cases cls <;> decide
  exact {
    issueEmpty := rfl
    countBelow := nofun
    countAtMost := le_rfl
    expectedOfHeader := nofun
    headerSeen := nofun
    haltedIff := by simp [State.reset]
    markerRecorded := fun h => absurd rfl h
    unpackerFresh := nofun
    packerEmpty := fun _ => rfl
    predFresh := nofun
    predRange := nofun
    tablesHeld := nofun
    packerWf := ⟨rfl, rfl⟩
    unpackerWf := ⟨Nat.le_refl 0, fun h => absurd rfl h, fun h => absurd rfl h⟩
    quantWf := fun t h => Bool.noConfusion ((hqt t).symm.trans h)
    huffWf := fun cls t h => Bool.noConfusion ((hhuff cls t).symm.trans h) }

/-! ## Errors, and what a terminal state takes -/

theorem State.Inv.release {s : State} (h : s.Inv) (rest : List (List Byte)) : (s.release rest).Inv := { h with }

theorem State.Inv.emit {s : State} (h : s.Inv) (e : Event) : (s.emit e).Inv := { h with }

/-- A fatal error halts the stream and leaves everything but the error state (R272). -/
theorem State.Inv.afterFatal {s : State} (h : s.Inv) (c : Cause) (aux : Byte) : (s.afterFatal c aux).Inv :=
  { h with
    countBelow := nofun
    headerSeen := nofun
    haltedIff := by
      refine ⟨fun _ => ?_, fun _ => rfl⟩
      by_cases hc : c.kind = .malformedTable
      · exact .inl (by simp [State.afterFatal, hc])
      · exact .inr (by simp [State.afterFatal, hc])
    markerRecorded := fun hm => by simp [State.afterFatal, h.markerRecorded hm]
    unpackerFresh := nofun
    packerEmpty := by simp [State.afterFatal]
    predFresh := nofun
    predRange := nofun
    tablesHeld := nofun }

theorem State.Inv.raise {s : State} (h : s.Inv) {c : Cause} (hc : c.kind.fatal = true) (aux : Byte) :
    (s.raise c none aux).Inv := by
  rw [s.raise_fatal aux hc]
  exact h.afterFatal c aux

theorem State.Inv.onUnknownKind {s : State} (h : s.Inv) (k : Byte) : (s.onUnknownKind k).Inv := by
  unfold State.onUnknownKind
  split
  · exact h.raise rfl k
  · exact h.raise rfl k
  · exact h
  · exact h

/-- A message keeps the invariant when its rule does, where it is accepted (R222). -/
theorem State.Inv.onMessage {s : State} (h : s.Inv) {k : MsgKind} {act : State → State}
    (hact : s.verdict k = .accept → (act s).Inv) : (s.onMessage k act).Inv := by
  obtain ⟨hv, ht⟩ | ⟨-, ht⟩ | ⟨-, ht⟩ | ⟨-, ht⟩ := s.onMessage_cases k act <;> rw [ht]
  · exact hact hv
  · exact h.raise rfl _
  · exact h
  · exact h.emit _

/-- A live stream has no fatal error recorded (R272). -/
theorem State.Inv.live {s : State} (h : s.Inv) (hs : s.scState = .idle ∨ s.scState = .scanActive) :
    s.status.getLsbD 0 = false ∧ s.status.getLsbD 3 = false := by
  have hnot : ¬ s.scState = .halted := by
    obtain hs | hs := hs <;> rw [hs] <;> decide
  simpa using mt h.haltedIff.mpr hnot

/-! ## HEADER, COMPONENT, EOS -/

theorem cdiv8_pos {n : Nat} (h : 0 < n) : 0 < cdiv8 n := Nat.div_pos (by omega) (by decide)

theorem zero_pred_range (ch : Chan) :
    -32768 ≤ ((#v[0, 0, 0] : Vector Word 3)[ch]).toInt ∧ ((#v[0, 0, 0] : Vector Word 3)[ch]).toInt ≤ 32767 := by
  revert ch
  decide

/-- HEADER opens a scan of at least one MCU (R224). -/
theorem State.Inv.openScan {s : State} (h : s.Inv) (hs : s.scState = .idle ∨ s.scState = .scanActive) {height width : Half}
    (hh : height ≠ 0) (hw : width ≠ 0) (file frame : List Byte) (p ss se sa : Byte) :
    (s.openScan height width file frame p ss se sa).Inv := by
  obtain ⟨hmte, hpv⟩ := h.live hs
  have hsize : (BitVec.ofNat 32 (cdiv8 height.toNat * cdiv8 width.toNat)).toNat = cdiv8 height.toNat * cdiv8 width.toNat :=
    Nat.mod_eq_of_lt (Nat.lt_of_le_of_lt (cdiv8_mul_cdiv8_le height width) (by decide))
  have hnat {x : Half} (hx : x ≠ 0) : 0 < x.toNat := Nat.pos_of_ne_zero fun h0 => hx (BitVec.eq_of_toNat_eq h0)
  have hpos := Nat.mul_pos (cdiv8_pos (hnat hh)) (cdiv8_pos (hnat hw))
  rw [State.openScan_eq]
  exact { h with
    countBelow := fun _ => hpos.trans_eq hsize.symm
    countAtMost := Nat.zero_le _
    expectedOfHeader := fun _ => ⟨hsize, hh, hw⟩
    headerSeen := fun _ => rfl
    haltedIff := by
      refine ⟨nofun, ?_⟩
      split <;> simpa [flagAbn] using And.intro hmte hpv
    markerRecorded := fun hm => absurd rfl hm
    unpackerFresh := fun _ => rfl
    packerEmpty := fun _ => rfl
    predFresh := fun _ _ => rfl
    predRange := fun _ => zero_pred_range
    tablesHeld := fun _ hc => absurd rfl hc
    packerWf := ⟨rfl, rfl⟩
    unpackerWf := ⟨Nat.le_refl 0, fun h => absurd rfl h, fun h => absurd rfl h⟩ }

theorem State.Inv.header {s : State} (h : s.Inv) (hs : s.scState = .idle ∨ s.scState = .scanActive) (height width : Half)
    (file frame : List Byte) (p ss se sa : Byte) : (s.header height width file frame p ss se sa).Inv := by
  unfold State.header
  split
  · exact h.raise rfl 0
  next hne =>
    obtain ⟨hh, hw⟩ := not_or.mp hne
    exact h.openScan hs hh hw file frame p ss se sa

/-- COMPONENT is accepted before the first MCU only, where nothing depends on the component slots (R222). -/
theorem State.Inv.component {s : State} (h : s.Inv) (hc : s.count = 0) (id hs vs tq ta td : Byte) :
    (s.component id hs vs tq ta td).Inv := by
  unfold State.component
  split
  · exact { h with tablesHeld := fun _ hne => absurd hc hne }
  · exact h.raise rfl id

theorem State.Inv.endOfStream {s : State} (h : s.Inv) (hs : s.scState = .idle ∨ s.scState = .scanActive) : s.endOfStream.Inv := by
  obtain ⟨hmte, hpv⟩ := h.live hs
  by_cases hopen : s.scState = .scanActive
  · rw [State.endOfStream_of_open hopen]
    exact { h with
      countBelow := nofun
      headerSeen := nofun
      haltedIff := ⟨nofun, by simpa [flagAbn] using And.intro hmte hpv⟩
      markerRecorded := fun hm => absurd rfl hm
      unpackerFresh := nofun
      packerEmpty := fun _ => rfl
      predFresh := nofun
      predRange := nofun
      tablesHeld := nofun
      packerWf := ⟨rfl, rfl⟩
      unpackerWf := ⟨Nat.le_refl 0, fun h => absurd rfl h, fun h => absurd rfl h⟩ }
  · rw [State.endOfStream_of_closed hopen]
    exact { h with
      countBelow := nofun
      headerSeen := nofun
      haltedIff := ⟨nofun, by simpa using And.intro hmte hpv⟩
      unpackerFresh := nofun
      packerEmpty := by simp
      predFresh := nofun
      predRange := nofun
      tablesHeld := nofun }

/-! ## The tables -/

/-- A table message is accepted with no scan open or before its first MCU (R222). -/
theorem State.acceptsTables_of_accept {s : State} {k : MsgKind} (hk : k = .hufftable ∨ k = .quanttable)
    (h : s.verdict k = .accept) : s.acceptsTables := by
  obtain hs | hs := State.accept_live h
  · exact .inl hs
  · refine .inr ⟨hs, by_contra fun hc => ?_⟩
    rw [State.verdict_violation (.inr ⟨hs, hc, by tauto⟩)] at h
    cases h

theorem State.huff_setHuff (s : State) (cls cls' : HuffClass) (t t' : SlotId) (hs : HuffSlot) :
    (s.setHuff cls t hs).huff cls' t' = if cls = cls' ∧ t = t' then hs else s.huff cls' t' := by
  have hne (h : ¬ t = t') : ¬ t.val = t'.val := fun hv => h (Fin.ext hv)
  cases cls <;> cases cls' <;> simp only [State.setHuff, State.huff] <;> by_cases h : t = t' <;> simp [h, hne]

/-- Writing a well-formed slot keeps the invariant while no scan relies on the tables. -/
theorem State.Inv.setHuff {s : State} (h : s.Inv) (hacc : s.acceptsTables) (cls : HuffClass) (t : SlotId) {hs : HuffSlot}
    (hwf : hs.wf) : (s.setHuff cls t hs).Inv := by
  have hhuff : ∀ cls' t', ((s.setHuff cls t hs).huff cls' t').wf := by
    intro cls' t'
    rw [State.huff_setHuff]
    split
    · exact hwf
    · exact h.huffWf cls' t'
  have htables : s.scState = .scanActive → s.count ≠ 0 → (s.setHuff cls t hs).precheckFailure (s.needsQuant false) = none := by
    intro hopen hc
    obtain hidle | ⟨-, hzero⟩ := hacc
    · rw [hidle] at hopen; cases hopen
    · exact absurd hzero hc
  cases cls <;> exact { h with tablesHeld := htables, huffWf := hhuff }

theorem buildEntries_error_fatal {id : Byte} {lengths : Vector Half 16} {table : List Byte} {c : Cause} {l : Nat}
    (h : buildEntries id lengths table = .error (c, l)) : c.kind.fatal = true := by
  unfold buildEntries at h
  split_ifs at h
  · cases h; rfl
  · cases h; rfl
  · cases h; rfl
  · split at h
    · cases h; rfl
    · cases h

theorem State.Inv.buildCodes {s : State} (h : s.Inv) (hacc : s.acceptsTables) (id : Byte) (lengths : Vector Half 16)
    (table : List Byte) : (s.buildCodes id lengths table).Inv := by
  unfold State.buildCodes
  split
  next c l he =>
    have hspoil : (s.spoil id).Inv := by
      unfold State.spoil
      split
      · exact { h.setHuff hacc (tableIdClass id) (tableIdSlot id) (hs := spoiledSlot s.freeIx) nofun with }
      · exact h
    exact hspoil.raise (buildEntries_error_fatal he) _
  next es he => exact h.setHuff hacc _ _ (builtSlotIsWellFormed id lengths table es he)

theorem State.Inv.qtLoad {s : State} (h : s.Inv) (hacc : s.acceptsTables) {id : Byte} {prec : Bool} {table : HalfBlock}
    (hwf : Instr.wellFormed (.quanttable id prec table) = true) : (s.qtLoad id prec table).Inv := by
  unfold State.qtLoad
  split
  · exact h.raise rfl id
  · refine { h with tablesHeld := fun hopen hc => ?_, quantWf := fun t => ?_ }
    · obtain hidle | ⟨-, hzero⟩ := hacc
      · rw [show s.scState = .scanActive from hopen] at hidle; cases hidle
      · exact absurd hzero hc
    · by_cases ht : slotOf id = t
      · subst ht
        intro _ hprec i
        simp only [Fin.getElem_fin, Vector.getElem_set_self] at hprec ⊢
        simp only [Instr.wellFormed, hprec, Bool.false_or, List.all_eq_true, decide_eq_true_eq] at hwf
        exact Nat.lt_succ_iff.mp (hwf _ (by simp))
      · have hne : ¬ (slotOf id).val = t.val := fun hv => ht (Fin.ext hv)
        have hqt := h.quantWf t
        simpa [Vector.getElem_set_ne, hne] using hqt

/-! ## MCU and CDATA -/

/-- The coefficients an MCU encodes are 16-bit values (R176, R228). -/
theorem State.mcuCoef_range (s : State) (y cb cr : HalfBlock) (ch : Chan) (i : Fin 64) :
    -32768 ≤ ((s.mcuCoef y cb cr)[ch][i]).toInt ∧ ((s.mcuCoef y cb cr)[ch][i]).toInt ≤ 32767 := by
  have hplain : ((s.loadMcu y cb cr).coef[ch][i]).toInt = (((#v[y, cb, cr] : Vector HalfBlock 3)[ch])[i]).toInt := by
    rw [State.loadMcu_coef, BitVec.toInt_signExtend_of_le (by decide)]
  have hrange : -32768 ≤ ((s.loadMcu y cb cr).coef[ch][i]).toInt ∧ ((s.loadMcu y cb cr).coef[ch][i]).toInt ≤ 32767 := by
    rw [hplain]
    exact ⟨BitVec.le_toInt _, Int.le_of_lt_add_one BitVec.toInt_lt⟩
  cases hq : s.params.quantOnEncode
  · rw [State.mcuCoef, if_neg (by rw [hq]; decide)]
    exact hrange
  · rw [State.mcuCoef_of_quant y cb cr s hq]
    by_cases hzero : (s.quantTable ch)[i] = 0
    · rw [quantBlock_get, if_pos hzero]
      decide
    · rw [quantBlock_toInt hzero]
      exact rhaz_bounds (Nat.pos_of_ne_zero fun h => hzero (BitVec.eq_of_toNat_eq h)) (by decide) (by decide) hrange

/-- `COUNT` does not wrap in an open scan (R26). -/
theorem State.Inv.count_succ {s : State} (h : s.Inv) (hopen : s.scState = .scanActive) :
    (s.count + 1).toNat = s.count.toNat + 1 := by
  have hbelow := h.countBelow hopen
  have hsize := s.expected.isLt
  exact Nat.mod_eq_of_lt (a := s.count.toNat + 1) (by omega)

/-- An MCU that passes its pre-check keeps the invariant (R228, R230). -/
theorem State.Inv.mcuBody {s : State} (h : s.Inv) (hopen : s.scState = .scanActive)
    (hready : s.precheckFailure (s.needsQuant false) = none) (y cb cr : HalfBlock) : (s.mcuBody y cb cr).Inv := by
  obtain ⟨hmte, hpv⟩ := h.live (.inr hopen)
  have hcount := h.count_succ hopen
  have hne : s.count + 1 ≠ 0 := fun h0 => by rw [h0] at hcount; cases hcount
  have hpred (ch : Chan) : -32768 ≤ ((s.mcuStart y cb cr).blocksWritten.pred[ch]).toInt ∧
      ((s.mcuStart y cb cr).blocksWritten.pred[ch]).toInt ≤ 32767 := by
    rw [State.blocksWritten_pred]
    exact s.mcuCoef_range y cb cr ch 0
  have hwf := ((s.mcuStart y cb cr).blocksWritten_extends.2 h.packerWf).1
  have hstatus : s.status.getLsbD 4 = true →
      (if s.mcuErrors y cb cr = [] then s.status else s.status ||| flagEnc).getLsbD 4 = true := by
    intro h4
    split <;> simp [h4]
  have hfatal : ¬ ((if s.mcuErrors y cb cr = [] then s.status else s.status ||| flagEnc).getLsbD 0 = true ∨
      (if s.mcuErrors y cb cr = [] then s.status else s.status ||| flagEnc).getLsbD 3 = true) := by
    split <;> simpa [flagEnc] using And.intro hmte hpv
  have hopen' := s.mcuBody_open y cb cr
  have hlast := s.mcuBody_last y cb cr
  rw [s.mcuBody_frame y cb cr]
  by_cases hend : s.count + 1 = s.expected
  · obtain ⟨hstate, hpacker, -⟩ := hlast hend
    rw [hstate, hpacker]
    exact { h with
      countBelow := nofun
      countAtMost := hcount.trans_le (h.countBelow hopen)
      headerSeen := nofun
      haltedIff := iff_of_false nofun hfatal
      markerRecorded := fun hm => hstatus (h.markerRecorded hm)
      unpackerFresh := nofun
      packerEmpty := fun _ => rfl
      predFresh := nofun
      predRange := nofun
      tablesHeld := nofun
      packerWf := ⟨rfl, rfl⟩ }
  · obtain ⟨hstate, hpacker, -⟩ := hopen' hend
    have hle : (s.count + 1).toNat ≤ s.expected.toNat := hcount.trans_le (h.countBelow hopen)
    rw [hstate, hpacker, hopen]
    exact { h with
      countBelow := fun _ => lt_of_le_of_ne hle fun heq => hend (BitVec.eq_of_toNat_eq heq)
      countAtMost := hle
      headerSeen := fun _ => h.headerSeen hopen
      haltedIff := iff_of_false nofun hfatal
      markerRecorded := fun hm => hstatus (h.markerRecorded hm)
      unpackerFresh := fun _ => h.unpackerFresh hopen
      packerEmpty := by
        rintro (hidle | ⟨-, hzero⟩)
        · cases hidle
        · exact absurd hzero hne
      predFresh := fun _ hzero => absurd hzero hne
      predRange := fun _ => hpred
      tablesHeld := fun _ _ => hready
      packerWf := hwf }

theorem State.Inv.mcu {s : State} (h : s.Inv) (hopen : s.scState = .scanActive) (y cb cr : HalfBlock) : (s.mcu y cb cr).Inv := by
  unfold State.mcu
  split
  · exact h.raise rfl _
  next hready => exact h.mcuBody hopen hready y cb cr

/-- A CDATA that passes its pre-check closes the scan and keeps the invariant (R229, R231). -/
theorem State.Inv.cdataBody {s : State} (h : s.Inv) (hopen : s.scState = .scanActive) (hc : s.count = 0) (data : List Byte) :
    (s.cdataBody data).Inv := by
  obtain ⟨hmte, hpv⟩ := h.live (.inr hopen)
  obtain ⟨evs, t, -, -, ⟨u, st, co, cf, pr, hread, rfl⟩, hbody⟩ := State.cdataBody_decodesTo data hc
  obtain ⟨f, rfl, hf0, hf3⟩ := hread.status
  have hunp : s.unp = Unpacker.reset := h.unpackerFresh hopen
  have hwf : (s.loadSegment data).unp.wf := by
    rw [State.loadSegment, hunp]
    exact ⟨Nat.zero_le _, fun h0 => absurd rfl h0, fun h0 => absurd rfl h0⟩
  rw [hbody]
  exact { h with
    countBelow := nofun
    countAtMost := le_rfl
    headerSeen := nofun
    haltedIff := iff_of_false nofun (by
      rw [State.loadSegment, BitVec.getLsbD_or, BitVec.getLsbD_or, hmte, hpv, hf0, hf3]
      decide)
    markerRecorded := hread.recorded h.markerRecorded
    unpackerFresh := nofun
    packerEmpty := fun _ => h.packerEmpty (.inr ⟨hopen, hc⟩)
    predFresh := nofun
    predRange := nofun
    tablesHeld := nofun
    unpackerWf := hread.wf hwf }

theorem State.Inv.cdata {s : State} (h : s.Inv) (hopen : s.scState = .scanActive) (hc : s.count = 0) (data : List Byte) :
    (s.cdata data).Inv := by
  unfold State.cdata
  split
  · exact h.raise rfl _
  · exact h.cdataBody hopen hc data

/-! ## Every step -/

/-- Where COMPONENT, MCU and CDATA are accepted (R222). -/
theorem State.accept_scanActive {s : State} {k : MsgKind} (hk : k = .component ∨ k = .mcu ∨ k = .cdata)
    (h : s.verdict k = .accept) : s.scState = .scanActive := by
  obtain hs | hs := State.accept_live h
  · rw [State.verdict_violation (.inl ⟨hs, hk⟩)] at h
    cases h
  · exact hs

theorem State.accept_before_first {s : State} {k : MsgKind} (hk : k = .component ∨ k = .cdata) (h : s.verdict k = .accept) :
    s.count = 0 := by
  have hs := State.accept_scanActive (by tauto) h
  by_contra hc
  rw [State.verdict_violation (.inr ⟨hs, hc, by tauto⟩)] at h
  cases h

/-- Each message keeps the invariant. -/
theorem State.Inv.exec {s t : State} (h : s.Inv) {i : Instr} (hi : i.layer = .message) (hwf : i.wellFormed = true)
    (ht : Machine.exec i s = .next t) : t.Inv := by
  cases i <;> cases hi <;> obtain rfl := Host.Outcome.next.inj ht
  case header height width file frame p ss se sa =>
    exact h.onMessage fun hacc => h.header (State.accept_live hacc) height width file frame p ss se sa
  case component id hs vs tq ta td =>
    exact h.onMessage fun hacc => h.component (State.accept_before_first (.inl rfl) hacc) id hs vs tq ta td
  case hufftable id lengths table =>
    exact h.onMessage fun hacc => h.buildCodes (State.acceptsTables_of_accept (.inl rfl) hacc) id (wideLengths lengths) table
  case quanttable id prec table =>
    exact h.onMessage fun hacc => h.qtLoad (State.acceptsTables_of_accept (.inr rfl) hacc) hwf
  case mcu y cb cr =>
    exact h.onMessage fun hacc => h.mcu (State.accept_scanActive (.inr (.inl rfl)) hacc) y cb cr
  case cdata data =>
    exact h.onMessage fun hacc =>
      h.cdata (State.accept_scanActive (.inr (.inr rfl)) hacc) (State.accept_before_first (.inr rfl) hacc) data
  case eos =>
    exact h.onMessage fun hacc => h.endOfStream (State.accept_live hacc)

/-- Settles O55: a step is a message, a record that is none, or a wait. -/
theorem stepKeepsInvariant : Obligations.StepKeepsInvariant := by
  unfold Obligations.StepKeepsInvariant
  intro s t h hstep
  obtain ⟨-, rfl⟩ | ⟨img, rest, i, -, hd, he⟩ | ⟨rest, k, -, rfl⟩ | ⟨rest, -, -, rfl⟩ := step_next_cases h.issueEmpty hstep
  · exact h
  · obtain ⟨hi, hwf⟩ := decodeRecord_message hd
    exact (h.release rest).exec hi hwf he
  · exact (h.release rest).onUnknownKind k
  · exact h.release rest

end Sys2Proof.Machine
end

section
/-! PROOFS. What no step takes back: a `STATUS` flag once set (R27), and an event once sent (R78, R243). -/

namespace Sys2Proof.Machine

open Sys2Proof

/-- `t` holds the flags and the events of `s`, and maybe more. -/
structure Grows (s t : State) : Prop where
  status : ∃ f : BitVec 6, t.status = s.status ||| f
  out : s.out <+: t.out

theorem Grows.of_eq {s t : State} (hstatus : t.status = s.status) (hout : t.out = s.out) : Grows s t :=
  ⟨⟨0#6, by rw [hstatus, BitVec.or_zero]⟩, hout ▸ List.prefix_refl _⟩

theorem Grows.refl (s : State) : Grows s s := .of_eq rfl rfl

theorem Grows.trans {s t u : State} (h : Grows s t) (h' : Grows t u) : Grows s u := by
  obtain ⟨⟨f, hf⟩, hout⟩ := h
  obtain ⟨⟨f', hf'⟩, hout'⟩ := h'
  exact ⟨⟨f ||| f', by rw [hf', hf, BitVec.or_assoc]⟩, hout.trans hout'⟩

/-! ## Errors and messages -/

theorem State.emit_grows (s : State) (e : Event) : Grows s (s.emit e) :=
  ⟨⟨0#6, BitVec.or_zero.symm⟩, List.prefix_append _ _⟩

theorem State.afterBlockError_grows (s : State) (c : Cause) (ch : Chan) (aux : Byte) : Grows s (s.afterBlockError c ch aux) :=
  ⟨⟨_, rfl⟩, List.prefix_append _ _⟩

theorem State.raise_grows (s : State) {c : Cause} (aux : Byte) (h : c.kind.fatal = true) : Grows s (s.raise c none aux) := by
  rw [s.raise_fatal aux h]
  exact ⟨⟨_, BitVec.or_assoc _ _ _⟩, List.prefix_append _ _⟩

theorem State.raiseAll_grows (es : List ChanError) (s : State) : Grows s (s.raiseAll es) := by
  refine ⟨?_, List.prefix_append _ _⟩
  by_cases hnil : es = []
  · exact ⟨0#6, (if_pos hnil).trans BitVec.or_zero.symm⟩
  · exact ⟨flagEnc, if_neg hnil⟩

theorem State.onMessage_grows {s : State} {k : MsgKind} {act : State → State}
    (hact : s.verdict k = .accept → Grows s (act s)) : Grows s (s.onMessage k act) := by
  obtain ⟨hv, ht⟩ | ⟨-, ht⟩ | ⟨-, ht⟩ | ⟨-, ht⟩ := s.onMessage_cases k act <;> rw [ht]
  · exact hact hv
  · exact s.raise_grows _ rfl
  · exact Grows.refl s
  · exact s.emit_grows _

theorem State.header_grows (s : State) (height width : Half) (file frame : List Byte) (p ss se sa : Byte) :
    Grows s (s.header height width file frame p ss se sa) := by
  unfold State.header
  split
  · exact s.raise_grows 0 rfl
  · rw [State.openScan_eq]
    refine ⟨?_, List.prefix_refl _⟩
    dsimp only
    split
    · exact ⟨flagAbn, rfl⟩
    · exact ⟨0#6, BitVec.or_zero.symm⟩

theorem State.component_grows (s : State) (id hs vs tq ta td : Byte) : Grows s (s.component id hs vs tq ta td) := by
  unfold State.component
  split
  · exact .of_eq rfl rfl
  · exact s.raise_grows id rfl

theorem State.setHuff_grows (s : State) (cls : HuffClass) (t : SlotId) (h : HuffSlot) : Grows s (s.setHuff cls t h) := by
  cases cls <;> exact .of_eq rfl rfl

theorem State.spoil_grows (s : State) (id : Byte) : Grows s (s.spoil id) := by
  unfold State.spoil
  split
  · exact (s.setHuff_grows _ _ _).trans (.of_eq rfl rfl)
  · exact Grows.refl s

theorem State.buildCodes_grows (s : State) (id : Byte) (lengths : Vector Half 16) (table : List Byte) :
    Grows s (s.buildCodes id lengths table) := by
  unfold State.buildCodes
  split
  next c l he => exact (s.spoil_grows id).trans (State.raise_grows _ _ (buildEntries_error_fatal he))
  · exact s.setHuff_grows _ _ _

theorem State.qtLoad_grows (s : State) (id : Byte) (prec : Bool) (table : HalfBlock) : Grows s (s.qtLoad id prec table) := by
  unfold State.qtLoad
  split
  · exact s.raise_grows id rfl
  · exact .of_eq rfl rfl

theorem State.completeEnc_grows (s : State) : Grows s s.completeEnc := by
  rw [State.completeEnc_eq]
  exact ⟨⟨0#6, BitVec.or_zero.symm⟩, List.prefix_append _ _⟩

theorem State.mcuEncoded_grows (s : State) (y cb cr : HalfBlock) : Grows s (s.mcuEncoded y cb cr) := by
  rw [State.mcuEncoded_eq]
  have h := s.raiseAll_grows (s.mcuErrors y cb cr)
  exact ⟨h.status, h.out⟩

theorem State.mcu_grows (s : State) (y cb cr : HalfBlock) : Grows s (s.mcu y cb cr) := by
  unfold State.mcu
  split
  · exact s.raise_grows _ rfl
  · rw [State.mcuBody_eq]
    split
    · exact (s.mcuEncoded_grows y cb cr).trans (State.completeEnc_grows _)
    · exact s.mcuEncoded_grows y cb cr

theorem State.completeDec_grows (s : State) : Grows s s.completeDec := (s.emit_grows _).trans (.of_eq rfl rfl)

theorem DecodesTo.grows {s t : State} {evs : List Event} {n : Word} (h : DecodesTo s evs n t) : Grows s t := by
  obtain ⟨_, _, _, _, _, hread, rfl⟩ := h
  obtain ⟨f, hf, -, -⟩ := hread.status
  exact ⟨⟨f, hf⟩, List.prefix_append _ _⟩

theorem State.cdata_grows (s : State) (data : List Byte) : Grows s (s.cdata data) := by
  unfold State.cdata
  split
  · exact s.raise_grows _ rfl
  · obtain ⟨evs, -, -, hto⟩ := State.decodeMcus_decodesTo (s.expected.toNat - s.count.toNat) (s.loadSegment data)
    have hload : Grows s (s.loadSegment data) := .of_eq rfl rfl
    exact (hload.trans hto.grows).trans (State.completeDec_grows _)

theorem State.endOfStream_grows (s : State) : Grows s s.endOfStream := by
  by_cases hs : s.scState = .scanActive
  · rw [State.endOfStream_of_open hs]
    exact ⟨⟨flagAbn, rfl⟩, List.prefix_append _ _⟩
  · rw [State.endOfStream_of_closed hs]
    exact ⟨⟨0#6, BitVec.or_zero.symm⟩, List.prefix_append _ _⟩

theorem State.onUnknownKind_grows (s : State) (k : Byte) : Grows s (s.onUnknownKind k) := by
  unfold State.onUnknownKind
  split
  · exact s.raise_grows k rfl
  · exact s.raise_grows k rfl
  · exact Grows.refl s
  · exact Grows.refl s

/-! ## Operations on their own -/

theorem ReadTo.grows {s : State} {u : Unpacker} {st : BitVec 6} (h : ReadTo s u st) : ∃ f : BitVec 6, st = s.status ||| f := by
  obtain ⟨f, hf, -, -⟩ := h.unpackTo.status
  exact ⟨f, hf⟩

theorem ReadsOn.grows {s t : State} (h : ReadsOn s t) : Grows s t := by
  obtain ⟨_, _, hread, rfl⟩ := h
  exact ⟨hread.grows, List.prefix_refl _⟩

theorem DecodesOn.grows {ch : Chan} {s t : State} (h : DecodesOn ch s t) : Grows s t := by
  obtain ⟨_, _, _, _, hread, rfl⟩ := h
  exact ⟨hread.grows, List.prefix_refl _⟩

theorem DecodeEnd.grows {ch : Chan} {s t : State} {ok : Bool} (h : DecodeEnd ch s ok t) : Grows s t := by
  obtain ⟨t0, ht0, ⟨-, rfl⟩ | ⟨-, c, aux, -, rfl⟩⟩ := h
  · exact ht0.grows
  · exact ht0.grows.trans (t0.afterBlockError_grows c ch aux)

theorem State.answer_grows (s : State) (r : Res) : Grows s (s.answer r) := .of_eq rfl rfl

theorem symbolEnd_grows {s : State} (r : Bool × Nat × State) (h : Grows s r.2.2) : Grows s (symbolEnd r) :=
  h.trans (.of_eq rfl rfl)

section
variable (s : State)

theorem exec_getbit_eq : ∃ r, exec .getbit s = .next (s.getBit.2.answer r) := by
  simp only [exec, execGetbit]
  rcases s.getBit with ⟨_ | _, t⟩ <;> exact ⟨_, rfl⟩

theorem exec_getbits_eq (n : Nat) : ∃ r, exec (.getbits n) s = .next ((State.getBitsFrom 0 n s).2.answer r) := by
  simp only [exec, execGetbits, State.getBits]
  rcases State.getBitsFrom 0 n s with ⟨_ | _, t⟩ <;> exact ⟨_, rfl⟩

theorem exec_hdecode_eq (cls : HuffClass) (t : SlotId) :
    ∃ r, exec (.hdecode cls t) s = .next ((s.hdecode (s.huff cls t)).2.answer r) := by
  simp only [exec, execHdecode]
  rcases s.hdecode (s.huff cls t) with ⟨_ | _, t⟩ <;> exact ⟨_, rfl⟩

theorem exec_recvval_eq (c : Nat) : ∃ r, exec (.recvval c) s = .next ((s.recvVal c).2.answer r) := by
  simp only [exec, execRecvval]
  rcases s.recvVal c with ⟨_ | _, t⟩ <;> exact ⟨_, rfl⟩

theorem exec_hlookup_eq (cls : HuffClass) (t : SlotId) (sym : Byte) :
    ∃ r, exec (.hlookup cls t sym) s = .next (s.answer r) := by
  simp only [exec, execHlookup]
  split <;> exact ⟨_, rfl⟩

theorem exec_emitsym_eq (cls : HuffClass) (t : SlotId) (sym : Byte) :
    ∃ p r, exec (.emitsym cls t sym) s = .next (State.answer r { s with packer := p }) := by
  simp only [exec, execEmitsym, State.emitSym_eq_map]
  cases (s.huff cls t).lookup sym with
  | none => exact ⟨s.packer, _, rfl⟩
  | some e => exact ⟨_, _, rfl⟩

theorem exec_precheck_eq (forCdata : Bool) :
    (∃ aux, exec (.precheck forCdata) s = .next ((s.raise .missingSetup none aux).answer .fail)) ∨
    exec (.precheck forCdata) s = .next (s.answer .ok) := by
  simp only [exec, execPrecheck]
  split
  next aux _ => exact .inl ⟨aux, rfl⟩
  next => exact .inr rfl

end

/-- No instruction takes back a flag or an event. -/
theorem exec_next_grows (i : Instr) (s : State) : ∃ t, exec i s = .next t ∧ Grows s t := by
  cases i
  case header => exact ⟨_, rfl, State.onMessage_grows fun _ => s.header_grows ..⟩
  case component => exact ⟨_, rfl, State.onMessage_grows fun _ => s.component_grows ..⟩
  case hufftable => exact ⟨_, rfl, State.onMessage_grows fun _ => s.buildCodes_grows ..⟩
  case quanttable => exact ⟨_, rfl, State.onMessage_grows fun _ => s.qtLoad_grows ..⟩
  case mcu => exact ⟨_, rfl, State.onMessage_grows fun _ => s.mcu_grows ..⟩
  case cdata => exact ⟨_, rfl, State.onMessage_grows fun _ => s.cdata_grows ..⟩
  case eos => exact ⟨_, rfl, State.onMessage_grows fun _ => s.endOfStream_grows⟩
  case dccat c =>
    by_cases hc : 16 < c.toNat
    · refine ⟨_, if_pos hc, Grows.trans ?_ (State.answer_grows _ _)⟩
      rw [s.raise_recoverable (c := .badCategory) _ _ (.inr rfl)]
      exact s.afterBlockError_grows _ _ _
    · exact ⟨_, exec_dccat_eq (Nat.not_lt.mp hc) s, symbolEnd_grows _ (s.dcItem_end s.latch.ch c.toNat).grows⟩
  case acrs => exact ⟨_, rfl, symbolEnd_grows _ (State.runSizeItem_end ..).grows⟩
  case acskip => exact ⟨_, rfl, symbolEnd_grows _ (State.runSizeItem_end ..).grows⟩
  case eob => exact ⟨_, rfl, symbolEnd_grows _ (Grows.refl s)⟩
  case zrl => exact ⟨_, rfl, symbolEnd_grows _ (Grows.refl s)⟩
  case buildcodes => exact ⟨_, rfl, s.buildCodes_grows ..⟩
  case qtload => exact ⟨_, rfl, s.qtLoad_grows ..⟩
  case putbits => exact ⟨_, rfl, .of_eq rfl rfl⟩
  case emitbyte => exact ⟨_, rfl, .of_eq rfl rfl⟩
  case finalize => exact ⟨_, rfl, .of_eq rfl rfl⟩
  case prestart => exact ⟨_, rfl, .of_eq rfl rfl⟩
  case getbit =>
    obtain ⟨r, h⟩ := exec_getbit_eq s
    exact ⟨_, h, s.getBit_readsOn.grows.trans (State.answer_grows _ r)⟩
  case getbits n =>
    obtain ⟨r, h⟩ := exec_getbits_eq s n
    exact ⟨_, h, (State.getBitsFrom_readsOn n 0 s).grows.trans (State.answer_grows _ r)⟩
  case urestart => exact ⟨_, rfl, .of_eq rfl rfl⟩
  case category => exact ⟨_, rfl, s.answer_grows _⟩
  case mag => exact ⟨_, rfl, s.answer_grows _⟩
  case hlookup cls t sym =>
    obtain ⟨r, h⟩ := exec_hlookup_eq s cls t sym
    exact ⟨_, h, s.answer_grows r⟩
  case emitsym cls t sym =>
    obtain ⟨p, r, h⟩ := exec_emitsym_eq s cls t sym
    exact ⟨_, h, .of_eq rfl rfl⟩
  case encodeBlock ch =>
    have hwritten : Grows s (s.blockWritten ch) := .of_eq rfl rfl
    exact ⟨_, s.exec_encodeBlock_eq ch, (hwritten.trans (State.raiseAll_grows _ _)).trans (State.answer_grows _ _)⟩
  case hdecode cls t =>
    obtain ⟨r, h⟩ := exec_hdecode_eq s cls t
    exact ⟨_, h, (s.hdecode_readsOn _).grows.trans (State.answer_grows _ r)⟩
  case unmag => exact ⟨_, rfl, s.answer_grows _⟩
  case recvval c =>
    obtain ⟨r, h⟩ := exec_recvval_eq s c
    exact ⟨_, h, (s.recvVal_readsOn c).grows.trans (State.answer_grows _ r)⟩
  case decodeBlock ch => exact ⟨_, exec_decodeBlock_eq ch s, (s.decodeBlock_end ch).grows.trans (State.answer_grows _ _)⟩
  case dequantize => exact ⟨_, rfl, .of_eq rfl rfl⟩
  case quantize =>
    refine ⟨_, rfl, ?_⟩
    rw [s.quantize_eq]
    have hcoef : Grows s { s with coef := s.quantized } := .of_eq rfl rfl
    exact hcoef.trans (State.raiseAll_grows _ _)
  case precheck forCdata =>
    obtain ⟨aux, h⟩ | h := exec_precheck_eq s forCdata
    · exact ⟨_, h, (s.raise_grows aux rfl).trans (State.answer_grows _ _)⟩
    · exact ⟨_, h, s.answer_grows _⟩
  case completeEnc => exact ⟨_, rfl, s.completeEnc_grows⟩
  case completeDec => exact ⟨_, rfl, s.completeDec_grows⟩

theorem exec_grows {i : Instr} {s t : State} (h : exec i s = .next t) : Grows s t := by
  obtain ⟨t', ht', hgrows⟩ := exec_next_grows i s
  obtain rfl := Host.Outcome.next.inj (ht'.symm.trans h)
  exact hgrows

/-- No step takes back a flag or an event. -/
theorem step_grows {s t : State} (h : step s = .next t) : Grows s t := by
  have hrelease (rest : List (List Byte)) : Grows s (s.release rest) := .of_eq rfl rfl
  cases hi : s.issue with
  | some i =>
    have hrun : step s = exec i { s with issue := none } := by simp only [step, hi]
    have hissue : Grows s { s with issue := none } := .of_eq rfl rfl
    exact hissue.trans (exec_grows (hrun.symm.trans h))
  | none =>
    obtain ⟨-, rfl⟩ | ⟨img, rest, i, -, -, he⟩ | ⟨rest, k, -, rfl⟩ | ⟨rest, -, -, rfl⟩ := step_next_cases hi h
    · exact Grows.refl t
    · exact (hrelease rest).trans (exec_grows he)
    · exact (hrelease rest).trans (State.onUnknownKind_grows _ k)
    · exact hrelease rest

/-- Settles O56: a step only adds flags. -/
theorem statusFlagsAreSticky : Obligations.StatusFlagsAreSticky := by
  unfold Obligations.StatusFlagsAreSticky
  intro s t f h hset
  obtain ⟨g, hg⟩ := (step_grows h).status
  rw [hg, BitVec.getLsbD_or, hset, Bool.true_or]

/-- Settles O57: a step only adds events. -/
theorem eventsAreOnlyAppended : Obligations.EventsAreOnlyAppended := by
  unfold Obligations.EventsAreOnlyAppended
  intro s t h
  exact (step_grows h).out

end Sys2Proof.Machine
end

section
/-! PROOFS. What a scan keeps (R81, R312): its tables and component slots. What no rule reads (R22, R33): component ids and sampling
factors. -/

namespace Sys2Proof.Machine

open Sys2Proof

/-! ## Tables and components in a scan -/

/-- `t` has the tables and the component slots of `s`. -/
def SameTables (s t : State) : Prop := t.qt = s.qt ∧ t.htDc = s.htDc ∧ t.htAc = s.htAc ∧ t.comp = s.comp

theorem SameTables.refl (s : State) : SameTables s s := ⟨rfl, rfl, rfl, rfl⟩

theorem State.raise_sameTables (s : State) (c : Cause) (ch : Option Chan) (aux : Byte) : SameTables s (s.raise c ch aux) :=
  ⟨State.raise_qt .., State.raise_htDc .., State.raise_htAc .., State.raise_comp ..⟩

theorem State.header_sameTables (s : State) (height width : Half) (file frame : List Byte) (p ss se sa : Byte) :
    SameTables s (s.header height width file frame p ss se sa) := by
  unfold State.header
  split
  · exact s.raise_sameTables ..
  · rw [State.openScan_eq]
    exact ⟨rfl, rfl, rfl, rfl⟩

theorem State.mcu_sameTables (s : State) (y cb cr : HalfBlock) : SameTables s (s.mcu y cb cr) := by
  unfold State.mcu
  split
  · exact s.raise_sameTables ..
  · rw [State.mcuBody_frame]
    exact ⟨rfl, rfl, rfl, rfl⟩

theorem State.endOfStream_sameTables (s : State) : SameTables s s.endOfStream := by
  by_cases hs : s.scState = .scanActive
  · rw [State.endOfStream_of_open hs]
    exact ⟨rfl, rfl, rfl, rfl⟩
  · rw [State.endOfStream_of_closed hs]
    exact ⟨rfl, rfl, rfl, rfl⟩

theorem State.onUnknownKind_sameTables (s : State) (k : Byte) : SameTables s (s.onUnknownKind k) := by
  unfold State.onUnknownKind
  split
  · exact s.raise_sameTables ..
  · exact s.raise_sameTables ..
  · exact SameTables.refl s
  · exact SameTables.refl s

theorem State.onMessage_sameTables {s : State} {k : MsgKind} {act : State → State}
    (hact : s.verdict k = .accept → SameTables s (act s)) : SameTables s (s.onMessage k act) := by
  obtain ⟨hv, ht⟩ | ⟨-, ht⟩ | ⟨-, ht⟩ | ⟨-, ht⟩ := s.onMessage_cases k act <;> rw [ht]
  · exact hact hv
  · exact s.raise_sameTables ..
  · exact SameTables.refl s
  · exact ⟨rfl, rfl, rfl, rfl⟩

/-- Past its first MCU an open scan accepts no message that writes a table or a component slot (R222). -/
theorem exec_sameTables {i : Instr} {s t : State} (hi : i.layer = .message) (hopen : s.scState = .scanActive)
    (hc : s.count ≠ 0) (h : exec i s = .next t) : SameTables s t := by
  have hnotables {k : MsgKind} (hk : k = .hufftable ∨ k = .quanttable) (hacc : s.verdict k = .accept) : False := by
    obtain hidle | ⟨-, hzero⟩ := State.acceptsTables_of_accept hk hacc
    · rw [hidle] at hopen; cases hopen
    · exact hc hzero
  cases i <;> cases hi <;> obtain rfl := Host.Outcome.next.inj h <;> refine State.onMessage_sameTables fun hacc => ?_
  case header => exact s.header_sameTables ..
  case component => exact absurd (State.accept_before_first (.inl rfl) hacc) hc
  case hufftable => exact (hnotables (.inl rfl) hacc).elim
  case quanttable => exact (hnotables (.inr rfl) hacc).elim
  case mcu => exact s.mcu_sameTables ..
  case cdata => exact absurd (State.accept_before_first (.inr rfl) hacc) hc
  case eos => exact s.endOfStream_sameTables

/-- Settles O59: a step is a message, a record that is none, or a wait. -/
theorem tablesAreFrozenInAScan : Obligations.TablesAreFrozenInAScan := by
  unfold Obligations.TablesAreFrozenInAScan
  intro s t hi hopen hc h
  obtain ⟨-, rfl⟩ | ⟨img, rest, i, -, hd, he⟩ | ⟨rest, k, -, rfl⟩ | ⟨rest, -, -, rfl⟩ := step_next_cases hi h
  · exact SameTables.refl t
  · exact exec_sameTables (s := s.release rest) (decodeRecord_message hd).1 hopen hc he
  · exact (s.release rest).onUnknownKind_sameTables k
  · exact ⟨rfl, rfl, rfl, rfl⟩

/-! ## Ids and sampling factors -/

/-- Component slots that name the same tables. -/
def SameIds (v w : Vector CompSlot 3) : Prop := ∀ ch : Chan, v[ch].tq = w[ch].tq ∧ v[ch].ta = w[ch].ta ∧ v[ch].td = w[ch].td

/-- The state with other component slots. -/
def State.withComp (v : Vector CompSlot 3) (s : State) : State := s.aside (some v) none

/-- What `act` does to a state does not depend on the ids and sampling factors of its component slots, which it leaves. -/
def IgnoresSampling (act : State → State) : Prop :=
  ∀ (s : State) (v : Vector CompSlot 3), SameIds v s.comp →
    act (s.withComp v) = (act s).withComp v ∧ (act s).comp = s.comp

theorem IgnoresSampling.comp {f g : State → State} (hf : IgnoresSampling f) (hg : IgnoresSampling g) :
    IgnoresSampling (fun s => g (f s)) := by
  intro s v hids
  obtain ⟨hfs, hcomp⟩ := hf s v hids
  obtain ⟨hgs, hcomp'⟩ := hg (f s) v (hcomp ▸ hids)
  exact ⟨(congrArg g hfs).trans hgs, hcomp'.trans hcomp⟩

theorem IgnoresSampling.id : IgnoresSampling (fun s => s) := fun _ _ _ => ⟨rfl, rfl⟩

theorem IgnoresSampling.ite {f g : State → State} {p : State → Prop} [∀ s, Decidable (p s)] (hf : IgnoresSampling f)
    (hg : IgnoresSampling g) (hp : ∀ (s : State) (v : Vector CompSlot 3), p (s.withComp v) ↔ p s) :
    IgnoresSampling (fun s => if p s then f s else g s) := by
  intro s v hids
  by_cases h : p s
  · simp only [if_pos h, if_pos ((hp s v).mpr h)]
    exact hf s v hids
  · simp only [if_neg h, if_neg (mt (hp s v).mp h)]
    exact hg s v hids

section
variable {s : State} {v : Vector CompSlot 3} (hids : SameIds v s.comp) (ch : Chan)
include hids

theorem State.dcTable_withComp : (s.withComp v).dcTable ch = s.dcTable ch := by
  show s.huffById .dc v[ch].td = s.huffById .dc s.comp[ch].td
  rw [(hids ch).2.2]

theorem State.acTable_withComp : (s.withComp v).acTable ch = s.acTable ch := by
  show s.huffById .ac v[ch].ta = s.huffById .ac s.comp[ch].ta
  rw [(hids ch).2.1]

theorem State.quantTable_withComp : (s.withComp v).quantTable ch = s.quantTable ch := by
  simp only [State.quantTable, State.withComp, State.aside, Option.getD_some, (hids ch).1]

theorem State.channelReady_withComp (q : Bool) : (s.withComp v).channelReady q ch = s.channelReady q ch := by
  rw [State.channelReady, State.channelReady, State.dcTable_withComp hids, State.acTable_withComp hids]
  simp only [State.huffIdsExist, State.withComp, State.aside, Option.getD_some, (hids ch).1, (hids ch).2.1, (hids ch).2.2]

omit ch in
theorem State.precheckFailure_withComp (q : Bool) : (s.withComp v).precheckFailure q = s.precheckFailure q := by
  simp only [State.precheckFailure, State.channelReady_withComp hids]
  rfl

end

theorem State.decodeAc_aside (c : Option (Vector CompSlot 3)) (l : Option Latch) (ch : Chan) (h : HuffSlot) (fuel k : Nat)
    (s : State) :
    State.decodeAc ch h fuel k (s.aside c l) = ((State.decodeAc ch h fuel k s).1, (State.decodeAc ch h fuel k s).2.aside c l) := by
  induction fuel generalizing k s with
  | zero => rfl
  | succ fuel ih =>
    rw [State.decodeAc, State.decodeAc, State.hdecode_aside]
    split
    · rfl
    · rcases hd : s.hdecode h with ⟨e | sym, s1⟩
      · exact congrArg (Prod.mk false) (s1.raise_aside c l e ch _ (.inr (State.hdecode_cause_kind hd)))
      · simp only [State.acItem_aside]
        rcases s1.acItem ch sym k with ⟨_ | _, k', s2⟩
        · rfl
        · exact ih k' s2

theorem State.decodeBlock_ignoresSampling (ch : Chan) : IgnoresSampling (fun s => (s.decodeBlock ch).2) := by
  intro s v hids
  obtain ⟨evs, -, u, st, co, cf, pr, -, hframe⟩ := s.decodeBlock_decodesTo ch
  refine ⟨?_, (congrArg State.comp hframe :)⟩
  dsimp only
  rw [State.decodeBlock, State.decodeBlock, State.dcTable_withComp hids, State.acTable_withComp hids]
  rw [show (s.withComp v).setBlock ch zeroBlock = (s.setBlock ch zeroBlock).aside (some v) none from rfl, State.hdecode_aside]
  rcases hd : (s.setBlock ch zeroBlock).hdecode (s.dcTable ch) with ⟨e | sym, s1⟩
  · exact s1.raise_aside _ _ e ch _ (.inr (State.hdecode_cause_kind hd))
  · dsimp only
    cases dcCategory sym with
    | none => exact s1.raise_aside _ _ .badCategory ch _ (.inr rfl)
    | some c =>
      dsimp only
      rw [State.dcItem_aside]
      rcases s1.dcItem ch c.toNat with ⟨_ | _, s2⟩
      · rfl
      · exact congrArg Prod.snd (State.decodeAc_aside _ _ ch _ 63 1 s2)

theorem State.encodeBlock_ignoresSampling (ch : Chan) : IgnoresSampling (fun s => (s.encodeBlock ch).2) := by
  intro s v hids
  simp only [State.encodeBlock_eq]
  refine ⟨?_, rfl⟩
  have houtcome : (s.withComp v).blockOutcome ch = s.blockOutcome ch := by
    unfold State.blockOutcome
    rw [State.dcTable_withComp hids, State.acTable_withComp hids]
    rfl
  unfold State.blockErrors State.blockWritten
  rw [houtcome]
  rfl

theorem State.quantize_ignoresSampling : IgnoresSampling State.quantize := by
  intro s v hids
  rw [State.quantize_eq, State.quantize_eq]
  refine ⟨?_, rfl⟩
  unfold State.zeroDivisors State.quantized
  simp only [State.quantTable_withComp hids]
  rfl

theorem State.dequantize_ignoresSampling : IgnoresSampling State.dequantize := by
  intro s v hids
  rw [State.dequantize_eq, State.dequantize_eq]
  refine ⟨?_, rfl⟩
  unfold State.dequantized
  simp only [State.quantTable_withComp hids]
  rfl

theorem State.raise_ignoresSampling {e : Cause} (he : e.kind.fatal = true) (aux : Byte) :
    IgnoresSampling (State.raise e none aux) := by
  intro s v _
  rw [State.raise_fatal _ aux he, State.raise_fatal _ aux he]
  exact ⟨rfl, rfl⟩

/-! ### The messages -/

theorem State.header_ignoresSampling (height width : Half) (file frame : List Byte) (p ss se sa : Byte) :
    IgnoresSampling (State.header height width file frame p ss se sa) := by
  refine .ite (State.raise_ignoresSampling rfl 0) (fun s v _ => ?_) fun _ _ => Iff.rfl
  rw [State.openScan_eq, State.openScan_eq]
  exact ⟨rfl, rfl⟩

theorem State.buildCodes_ignoresSampling (id : Byte) (lengths : Vector Half 16) (table : List Byte) :
    IgnoresSampling (State.buildCodes id lengths table) := by
  have hset (cls : HuffClass) (t : SlotId) (h : HuffSlot) : IgnoresSampling (State.setHuff cls t h) := by
    intro s v _
    cases cls <;> exact ⟨rfl, rfl⟩
  have hspoil : IgnoresSampling (State.spoil id) := by
    intro s v _
    unfold State.spoil
    split
    · cases tableIdClass id <;> exact ⟨rfl, rfl⟩
    · exact ⟨rfl, rfl⟩
  unfold State.buildCodes
  split
  next c l he => exact hspoil.comp (State.raise_ignoresSampling (buildEntries_error_fatal he) _)
  · exact hset _ _ _

theorem State.qtLoad_ignoresSampling (id : Byte) (prec : Bool) (table : HalfBlock) :
    IgnoresSampling (State.qtLoad id prec table) := by
  refine .ite (State.raise_ignoresSampling rfl id) (fun s v _ => ?_) fun _ _ => Iff.rfl
  exact ⟨rfl, rfl⟩

/-- A message that starts with a pre-check (R227). -/
theorem precheck_ignoresSampling {q : State → Bool} (hq : ∀ (s : State) (v : Vector CompSlot 3), q (s.withComp v) = q s)
    {act body : State → State} (hbody : IgnoresSampling body)
    (hact : ∀ s, (∀ aux, s.precheckFailure (q s) = some aux → act s = s.raise .missingSetup none aux) ∧
      (s.precheckFailure (q s) = none → act s = body s)) : IgnoresSampling act := by
  intro s v hids
  have hsame : (s.withComp v).precheckFailure (q (s.withComp v)) = s.precheckFailure (q s) := by
    rw [hq, State.precheckFailure_withComp hids]
  cases hp : s.precheckFailure (q s) with
  | some aux =>
    rw [(hact s).1 aux hp, (hact _).1 aux (hsame.trans hp)]
    exact State.raise_ignoresSampling rfl aux s v hids
  | none =>
    rw [(hact s).2 hp, (hact _).2 (hsame.trans hp)]
    exact hbody s v hids

theorem State.encodeMcu_ignoresSampling : IgnoresSampling State.encodeMcu := by
  have h := ((State.encodeBlock_ignoresSampling 0).comp (State.encodeBlock_ignoresSampling 1)).comp
    (State.encodeBlock_ignoresSampling 2)
  exact h

theorem State.mcuBody_ignoresSampling (y cb cr : HalfBlock) : IgnoresSampling (State.mcuBody y cb cr) := by
  have hload : IgnoresSampling (State.loadMcu y cb cr) := fun _ _ _ => ⟨rfl, rfl⟩
  have hquant : IgnoresSampling (fun s : State => if s.params.quantOnEncode = true then s.quantize else s) :=
    .ite State.quantize_ignoresSampling .id fun _ _ => Iff.rfl
  have hcount : IgnoresSampling State.countMcu := fun _ _ _ => ⟨rfl, rfl⟩
  have hlast : IgnoresSampling (fun s : State => if s.count = s.expected then s.completeEnc else s) :=
    .ite (fun _ _ _ => ⟨rfl, rfl⟩) .id fun _ _ => Iff.rfl
  have h := (((hload.comp hquant).comp State.encodeMcu_ignoresSampling).comp hcount).comp hlast
  exact h

theorem State.mcu_ignoresSampling (y cb cr : HalfBlock) : IgnoresSampling (State.mcu y cb cr) := by
  refine precheck_ignoresSampling (q := State.needsQuant false) (fun _ _ => rfl) (State.mcuBody_ignoresSampling y cb cr)
    fun s => ⟨fun aux h => ?_, fun h => ?_⟩ <;> rw [State.mcu, h]

theorem State.decodeMcu_ignoresSampling : IgnoresSampling State.decodeMcu := by
  have hclear : IgnoresSampling State.clearCorrupt := fun _ _ _ => ⟨rfl, rfl⟩
  have hsend : IgnoresSampling (fun s : State => (s.emit s.blocksEvent).countMcu) := fun _ _ _ => ⟨rfl, rfl⟩
  have h := ((((hclear.comp (State.decodeBlock_ignoresSampling 0)).comp (State.decodeBlock_ignoresSampling 1)).comp
    (State.decodeBlock_ignoresSampling 2)).comp State.dequantize_ignoresSampling).comp hsend
  exact h

theorem State.decodeMcus_ignoresSampling (n : Nat) : IgnoresSampling (State.decodeMcus n) := by
  induction n with
  | zero => exact .id
  | succ n ih => exact State.decodeMcu_ignoresSampling.comp ih

theorem State.cdataBody_ignoresSampling (data : List Byte) : IgnoresSampling (State.cdataBody data) := by
  have hload : IgnoresSampling (State.loadSegment data) := fun _ _ _ => ⟨rfl, rfl⟩
  have hloop : IgnoresSampling (fun s : State => State.decodeMcus (s.expected.toNat - s.count.toNat) s) :=
    fun s v hids => State.decodeMcus_ignoresSampling (s.expected.toNat - s.count.toNat) s v hids
  have hdone : IgnoresSampling State.completeDec := fun _ _ _ => ⟨rfl, rfl⟩
  have h := (hload.comp hloop).comp hdone
  exact h

theorem State.cdata_ignoresSampling (data : List Byte) : IgnoresSampling (State.cdata data) := by
  refine precheck_ignoresSampling (q := State.needsQuant true) (fun _ _ => rfl) (State.cdataBody_ignoresSampling data)
    fun s => ⟨fun aux h => ?_, fun h => ?_⟩ <;> rw [State.cdata, h]

theorem State.endOfStream_ignoresSampling : IgnoresSampling State.endOfStream := by
  intro s v _
  by_cases hs : s.scState = .scanActive
  · rw [State.endOfStream_of_open hs, State.endOfStream_of_open (s := s.withComp v) hs]
    exact ⟨rfl, rfl⟩
  · rw [State.endOfStream_of_closed hs, State.endOfStream_of_closed (s := s.withComp v) hs]
    exact ⟨rfl, rfl⟩

/-! ### Forgetting -/

/-- The component slots with the fields no rule reads put to zero (R22, R33). -/
def forgetComp (v : Vector CompSlot 3) : Vector CompSlot 3 := Vector.ofFn (fun i => { v[i] with id := 0, h := 0, v := 0 })

theorem State.forgetSampling_eq (s : State) : s.forgetSampling = s.withComp (forgetComp s.comp) := rfl

theorem forgetComp_sameIds (v : Vector CompSlot 3) : SameIds (forgetComp v) v := fun ch => by simp [forgetComp]

theorem forgetComp_idem (v : Vector CompSlot 3) : forgetComp (forgetComp v) = forgetComp v :=
  Vector.ext fun i hi => by simp [forgetComp]

theorem IgnoresSampling.forget {act : State → State} (h : IgnoresSampling act) (s : State) :
    (act s.forgetSampling).forgetSampling = (act s).forgetSampling := by
  obtain ⟨hact, hcomp⟩ := h s (forgetComp s.comp) (forgetComp_sameIds s.comp)
  rw [s.forgetSampling_eq, hact, State.forgetSampling_eq, State.forgetSampling_eq, hcomp]
  exact congrArg (fun v => (act s).withComp v) (forgetComp_idem s.comp)

theorem forgetComp_set (v : Vector CompSlot 3) {n : Nat} (hn : n < 3) (slot : CompSlot) :
    forgetComp ((forgetComp v).set n slot) = forgetComp (v.set n slot) := by
  refine Vector.ext fun i hi => ?_
  simp only [forgetComp, Vector.getElem_ofFn, Fin.getElem_fin, Vector.getElem_set]
  split <;> simp

/-- COMPONENT writes its fields and reads none (R225). -/
theorem State.component_forget (s : State) (id hs vs tq ta td : Byte) :
    (s.forgetSampling.component id hs vs tq ta td).forgetSampling = (s.component id hs vs tq ta td).forgetSampling := by
  unfold State.component
  by_cases hn : s.ncomp.val < 3
  · rw [dif_pos hn, dif_pos (show s.forgetSampling.ncomp.val < 3 from hn)]
    exact congrArg (fun v => State.withComp v { s with ncomp := s.ncomp + 1 }) (forgetComp_set s.comp hn _)
  · rw [dif_neg hn, dif_neg (show ¬ s.forgetSampling.ncomp.val < 3 from hn)]
    exact (State.raise_ignoresSampling rfl id).forget s

theorem State.onMessage_forget (k : MsgKind) {act : State → State}
    (hact : ∀ s : State, (act s.forgetSampling).forgetSampling = (act s).forgetSampling) (s : State) :
    (s.forgetSampling.onMessage k act).forgetSampling = (s.onMessage k act).forgetSampling := by
  have hverdict : s.forgetSampling.verdict k = s.verdict k := rfl
  have hemit : IgnoresSampling (State.emit .eos) := fun _ _ _ => ⟨rfl, rfl⟩
  unfold State.onMessage
  rw [hverdict]
  cases s.verdict k with
  | accept => exact hact s
  | violation => exact (State.raise_ignoresSampling rfl _).forget s
  | drop => exact IgnoresSampling.id.forget s
  | forwardEos => exact hemit.forget s

/-- Settles O60, message by message. -/
theorem samplingFactorsAreNeverRead : Obligations.SamplingFactorsAreNeverRead := by
  unfold Obligations.SamplingFactorsAreNeverRead
  intro i s t hi ht
  cases i <;> cases hi <;> obtain rfl := Host.Outcome.next.inj ht <;> refine ⟨_, rfl, ?_⟩
  case header => exact State.onMessage_forget .header (State.header_ignoresSampling _ _ _ _ _ _ _ _).forget s
  case component id hs vs tq ta td =>
    exact State.onMessage_forget .component (fun s => s.component_forget id hs vs tq ta td) s
  case hufftable => exact State.onMessage_forget .hufftable (State.buildCodes_ignoresSampling _ _ _).forget s
  case quanttable => exact State.onMessage_forget .quanttable (State.qtLoad_ignoresSampling _ _ _).forget s
  case mcu => exact State.onMessage_forget .mcu (State.mcu_ignoresSampling _ _ _).forget s
  case cdata => exact State.onMessage_forget .cdata (State.cdata_ignoresSampling _).forget s
  case eos => exact State.onMessage_forget .eos State.endOfStream_ignoresSampling.forget s

end Sys2Proof.Machine
end

section
/-! PROOFS. The scan round trip (R203): a decoder that reads the bits an MCU was written with is, in what it decodes with, the encoder
after that MCU. -/

namespace Sys2Proof.Machine

open Sys2Proof

/-! ## The tables of a scan -/

theorem State.precheckFailure_false {s : State} (h : s.precheckFailure true = none) : s.precheckFailure false = none := by
  obtain ⟨hn, hready⟩ := (s.precheckFailure_eq_none_iff true).mp h
  refine (s.precheckFailure_eq_none_iff false).mpr ⟨hn, fun ch => ?_⟩
  obtain ⟨hdc, hac, -⟩ := (s.channelReady_iff true ch).mp (hready ch)
  exact (s.channelReady_iff false ch).mpr ⟨hdc, hac, nofun⟩

/-- The tables of a scan that passed its pre-check are valid and well formed (R35 to R37, R227). -/
theorem State.Inv.hasCodes {s : State} (h : s.Inv) {q : Bool} (hready : s.precheckFailure q = none) (ch : Chan) :
    (s.dcTable ch).HasCodes ∧ (s.acTable ch).HasCodes := by
  obtain ⟨-, hchannels⟩ := (s.precheckFailure_eq_none_iff q).mp hready
  obtain ⟨⟨hdcId, hdc⟩, ⟨hacId, hac⟩, -⟩ := (s.channelReady_iff q ch).mp (hchannels ch)
  have hdcEq : s.dcTable ch = s.huff .dc (slotOf s.comp[ch].td) := s.huffById_of_lt .dc hdcId
  have hacEq : s.acTable ch = s.huff .ac (slotOf s.comp[ch].ta) := s.huffById_of_lt .ac hacId
  exact ⟨HuffSlot.wf.hasCodes (hdcEq ▸ h.huffWf _ _) hdc, HuffSlot.wf.hasCodes (hacEq ▸ h.huffWf _ _) hac⟩

/-! ## One MCU -/

/-- The state a decoder reaches with a block read. -/
def State.afterBlock (u : Unpacker) (ch : Chan) (b : Block) (d : State) : State :=
  { d with unp := u, coef := d.coef.set ch b, pred := d.pred.set ch b[(0 : Fin 64)] }

/-- What a block without an error wrote is read back (R203). -/
theorem State.decodeBlock_of_blockWritten {s : State} {ch : Chan} (hwf : s.packer.wf) (herr : s.blockErrors ch = [])
    (hdc : (s.dcTable ch).HasCodes) (hac : (s.acTable ch).HasCodes) (hdiff : (s.dcDiff ch).natAbs ≤ 65535) :
    ∃ w, (s.blockWritten ch).packer.bits = s.packer.bits ++ w ∧
      ∀ (d : State) (u : Unpacker), d.dcTable ch = s.dcTable ch → d.acTable ch = s.acTable ch → d.pred[ch] = s.pred[ch] →
        Unpacker.reads w d.unp = some u → d.decodeBlock ch = (true, d.afterBlock u ch s.coef[ch]) := by
  have henc : s.encodeBlock ch = (true, s.blockWritten ch) := by
    rw [s.encodeBlock_eq, herr, State.raiseAll_nil]
    rfl
  exact State.decodeBlock_of_encodeBlock hwf henc hdc hac hdiff

/-- A difference of 16-bit values (R176). -/
theorem natAbs_sub_le {a b : Int} (ha : -32768 ≤ a ∧ a ≤ 32767) (hb : -32768 ≤ b ∧ b ≤ 32767) : (a - b).natAbs ≤ 65535 := by
  omega

/-- The decoder `d` has what the encoder `s` codes with: tables, predictors, and the number of MCUs. -/
structure Follows (s d : State) : Prop where
  comp : d.comp = s.comp
  qt : d.qt = s.qt
  htDc : d.htDc = s.htDc
  htAc : d.htAc = s.htAc
  pred : d.pred = s.pred
  count : d.count = s.count

/-- The state a decoder reaches with an MCU read: `u` its Unpacker, `bs` the MCU's coefficients. -/
def State.afterMcu (u : Unpacker) (bs : Vector Block 3) (p : Vector Word 3) (d : State) : State :=
  { d with
    unp := u
    coef := Vector.ofFn (fun ch => dequantBlock bs[ch] (d.quantTable ch))
    pred := p
    corrupt := Vector.replicate 3 false
    count := d.count + 1
    out := d.out ++ [.blocks d.count (dequantBlock bs[(0 : Chan)] (d.quantTable 0))
      (dequantBlock bs[(1 : Chan)] (d.quantTable 1)) (dequantBlock bs[(2 : Chan)] (d.quantTable 2)) (Vector.replicate 3 false)] }

/-- The end of a round of the CDATA loop: the three blocks dequantized and sent, one MCU counted (R229). -/
def State.sendBlocks (d : State) : State := (d.dequantize.emit d.dequantize.blocksEvent).countMcu

theorem State.decodeMcu_eq (d : State) : d.decodeMcu
    = (State.decodeBlock 2 (State.decodeBlock 1 (State.decodeBlock 0 d.clearCorrupt).2).2).2.sendBlocks := rfl

theorem State.sendBlocks_eq (d : State) : d.sendBlocks = { d with
    coef := Vector.ofFn (fun ch => dequantBlock d.coef[ch] (d.quantTable ch))
    count := d.count + 1
    out := d.out ++ [.blocks d.count (dequantBlock d.coef[(0 : Chan)] (d.quantTable 0))
      (dequantBlock d.coef[(1 : Chan)] (d.quantTable 1)) (dequantBlock d.coef[(2 : Chan)] (d.quantTable 2)) d.corrupt] } := by
  rw [State.sendBlocks, State.dequantize_eq, ← d.dequantized_get 0, ← d.dequantized_get 1, ← d.dequantized_get 2]
  rfl

theorem set_channels (v w : Vector Block 3) :
    ((v.set 0 w[(0 : Chan)]).set 1 w[(1 : Chan)]).set 2 w[(2 : Chan)] = w := by
  refine Vector.ext fun i hi => ?_
  interval_cases i <;> simp

theorem State.afterBlocks_eq (d : State) (u0 u1 u : Unpacker) (bs : Vector Block 3) :
    ((d.afterBlock u0 0 bs[(0 : Chan)]).afterBlock u1 1 bs[(1 : Chan)]).afterBlock u 2 bs[(2 : Chan)] = { d with
      unp := u
      coef := bs
      pred := ((d.pred.set 0 bs[(0 : Chan)][(0 : Fin 64)]).set 1 bs[(1 : Chan)][(0 : Fin 64)]).set 2
        bs[(2 : Chan)][(0 : Fin 64)] } :=
  congrArg (fun c => ({ d with
    unp := u
    coef := c
    pred := ((d.pred.set 0 bs[(0 : Chan)][(0 : Fin 64)]).set 1 bs[(1 : Chan)][(0 : Fin 64)]).set 2
      bs[(2 : Chan)][(0 : Fin 64)] } : State)) (set_channels d.coef bs)

theorem State.blocksWritten_pred_eq (a : State) :
    a.blocksWritten.pred = ((a.pred.set 0 a.coef[(0 : Chan)][(0 : Fin 64)]).set 1 a.coef[(1 : Chan)][(0 : Fin 64)]).set 2
      a.coef[(2 : Chan)][(0 : Fin 64)] := rfl

/-- What the three blocks of `a` wrote without an error is read back (R203, R229). -/
theorem State.decodeMcu_of_blocksWritten {a : State} (hwf : a.packer.wf) (herr : a.blocksErrors = [])
    (hcodes : ∀ ch, (a.dcTable ch).HasCodes ∧ (a.acTable ch).HasCodes) (hdiff : ∀ ch, (a.dcDiff ch).natAbs ≤ 65535) :
    ∃ w, a.blocksWritten.packer.bits = a.packer.bits ++ w ∧
      ∀ (d : State) (u : Unpacker), Follows a d → Unpacker.reads w d.unp = some u →
        d.decodeMcu = d.afterMcu u a.coef a.blocksWritten.pred := by
  obtain ⟨herr01, herr2⟩ := List.append_eq_nil_iff.mp herr
  obtain ⟨herr0, herr1⟩ := List.append_eq_nil_iff.mp herr01
  have hwf1 : (a.blockWritten 0).packer.wf := ((a.blockOutcome_extends 0).2 hwf).1
  have hwf2 : ((a.blockWritten 0).blockWritten 1).packer.wf := (((a.blockWritten 0).blockOutcome_extends 1).2 hwf1).1
  have hdiff1 : ((a.blockWritten 0).dcDiff 1).natAbs ≤ 65535 := by
    have hsame : (a.blockWritten 0).dcDiff 1 = a.dcDiff 1 := by simp [State.dcDiff, State.blockWritten]
    exact hsame ▸ hdiff 1
  have hdiff2 : (((a.blockWritten 0).blockWritten 1).dcDiff 2).natAbs ≤ 65535 := by
    have hsame : ((a.blockWritten 0).blockWritten 1).dcDiff 2 = a.dcDiff 2 := by simp [State.dcDiff, State.blockWritten]
    exact hsame ▸ hdiff 2
  obtain ⟨w0, hw0, hd0⟩ := State.decodeBlock_of_blockWritten hwf herr0 (hcodes 0).1 (hcodes 0).2 (hdiff 0)
  obtain ⟨w1, hw1, hd1⟩ := State.decodeBlock_of_blockWritten hwf1 herr1 (hcodes 1).1 (hcodes 1).2 hdiff1
  obtain ⟨w2, hw2, hd2⟩ := State.decodeBlock_of_blockWritten hwf2 herr2 (hcodes 2).1 (hcodes 2).2 hdiff2
  refine ⟨w0 ++ w1 ++ w2, ?_, fun d u hd hreads => ?_⟩
  · rw [State.blocksWritten, hw2, hw1, hw0]
    simp
  rw [Unpacker.reads_append, Unpacker.reads_append] at hreads
  obtain ⟨u1, hreads, hr2⟩ := Option.bind_eq_some_iff.mp hreads
  obtain ⟨u0, hr0, hr1⟩ := Option.bind_eq_some_iff.mp hreads
  have h0 : State.decodeBlock 0 d.clearCorrupt = (true, d.clearCorrupt.afterBlock u0 0 a.coef[(0 : Chan)]) :=
    hd0 _ u0 (State.dcTable_congr 0 hd.comp hd.htDc) (State.acTable_congr 0 hd.comp hd.htAc)
      (by simp [State.clearCorrupt, hd.pred]) hr0
  generalize hd1eq : d.clearCorrupt.afterBlock u0 0 a.coef[(0 : Chan)] = d1 at h0
  have h1 : State.decodeBlock 1 d1 = (true, d1.afterBlock u1 1 a.coef[(1 : Chan)]) := by
    subst hd1eq
    exact hd1 _ u1 (State.dcTable_congr 1 hd.comp hd.htDc) (State.acTable_congr 1 hd.comp hd.htAc)
      (by simp [State.afterBlock, State.blockWritten, State.clearCorrupt, hd.pred]) hr1
  generalize hd2eq : d1.afterBlock u1 1 a.coef[(1 : Chan)] = d2 at h1
  have h2 : State.decodeBlock 2 d2 = (true, d2.afterBlock u 2 a.coef[(2 : Chan)]) := by
    subst hd2eq hd1eq
    exact hd2 _ u (State.dcTable_congr 2 hd.comp hd.htDc) (State.acTable_congr 2 hd.comp hd.htAc)
      (by simp [State.afterBlock, State.blockWritten, State.clearCorrupt, hd.pred]) hr2
  rw [State.decodeMcu_eq, h0, h1, h2, ← hd2eq, ← hd1eq, State.sendBlocks_eq, State.afterBlocks_eq, State.blocksWritten_pred_eq,
    ← hd.pred]
  rfl

/-! ## A scan -/

/-- `t` is `s` after decoding without an error that sent the events `evs` (R203). -/
def DecodesCleanly (s : State) (evs : List Event) (t : State) : Prop :=
  ∃ u co cf pr n, u.marker = s.unp.marker ∧ t = { s with
    unp := u, corrupt := co, coef := cf, pred := pr, count := n, out := s.out ++ evs }

theorem DecodesCleanly.trans {s t u : State} {evs evs' : List Event} (h : DecodesCleanly s evs t)
    (h' : DecodesCleanly t evs' u) : DecodesCleanly s (evs ++ evs') u := by
  obtain ⟨_, _, _, _, _, hmarker, rfl⟩ := h
  obtain ⟨_, _, _, _, _, hmarker', rfl⟩ := h'
  exact ⟨_, _, _, _, _, hmarker'.trans hmarker, by rw [List.append_assoc]⟩

theorem State.afterMcu_cleanly {d : State} {u : Unpacker} (p : Vector Word 3)
    (m : HalfBlock × HalfBlock × HalfBlock)
    (hu : u.marker = d.unp.marker) :
    DecodesCleanly d [decodedBlocks d d.count m] (d.afterMcu u #v[extendBlock m.1, extendBlock m.2.1, extendBlock m.2.2] p) :=
  ⟨_, _, _, _, _, hu, rfl⟩

/-- The hand-off of a scan's bytes (R230). -/
def State.handOff (s : State) (bytes : List Byte) : Event :=
  .scanbuf bytes s.hdr.height s.hdr.width s.hdr.filename s.hdr.frameType s.hdr.precision s.hdr.ss s.hdr.se s.hdr.sa

/-- Sending no event but a hand-off is raising no error. -/
theorem errors_eq_nil {es : List ChanError} {index : Word} {out : List Event} {s : State} {bytes : List Byte}
    (h : out ++ es.map (ChanError.log index) <+: out ++ [s.handOff bytes]) : es = [] := by
  cases es with
  | nil => rfl
  | cons e es =>
    obtain ⟨he, -⟩ := List.cons_prefix_cons.mp ((List.prefix_append_right_inj out).mp h)
    cases he

theorem encodeMcus_grows {ms : List (HalfBlock × HalfBlock × HalfBlock)} {s t : State} (h : encodeMcus ms s = .next t) :
    Grows s t := by
  induction ms generalizing s with
  | nil =>
    obtain rfl := Host.Outcome.next.inj h
    exact Grows.refl s
  | cons m ms ih =>
    obtain ⟨s', hs', hgrows⟩ := exec_next_grows (.mcu m.1 m.2.1 m.2.2) s
    rw [encodeMcus, hs'] at h
    exact hgrows.trans (ih h)

/-- What an MCU without an error wrote is read back (R203). -/
theorem State.Inv.decodeMcu_of_mcu {s : State} (h : s.Inv) (hopen : s.scState = .scanActive)
    (hquant : s.params.quantOnEncode = false) {q : Bool} (hready : s.precheckFailure q = none) {y cb cr : HalfBlock}
    (herr : s.mcuErrors y cb cr = []) :
    ∃ w, (s.mcuStart y cb cr).blocksWritten.packer.bits = s.packer.bits ++ w ∧
      ∀ (d : State) (u : Unpacker), Follows s d → Unpacker.reads w d.unp = some u →
        d.decodeMcu = d.afterMcu u #v[extendBlock y, extendBlock cb, extendBlock cr] (s.mcuStart y cb cr).blocksWritten.pred := by
  have hdiff (ch : Chan) : ((s.mcuStart y cb cr).dcDiff ch).natAbs ≤ 65535 :=
    natAbs_sub_le (s.mcuCoef_range y cb cr ch 0) (h.predRange hopen ch)
  obtain ⟨w, hbits, hdecode⟩ := State.decodeMcu_of_blocksWritten (a := s.mcuStart y cb cr) h.packerWf
    (List.append_eq_nil_iff.mp herr).2 (fun ch => h.hasCodes hready ch) hdiff
  refine ⟨w, hbits, fun d u hd hreads => ?_⟩
  have hcoef : (s.mcuStart y cb cr).coef = #v[extendBlock y, extendBlock cb, extendBlock cr] := by
    rw [State.mcuStart, State.mcuCoef, hquant]
    rfl
  rw [hdecode d u ⟨hd.comp, hd.qt, hd.htDc, hd.htAc, hd.pred, hd.count⟩ hreads, hcoef]

/-- The events of a scan's MCUs depend on the quantization tables only. -/
theorem decodedScan_congr {s d : State} (h : ∀ ch, d.quantTable ch = s.quantTable ch) (index : Word)
    (ms : List (HalfBlock × HalfBlock × HalfBlock)) : decodedScan d index ms = decodedScan s index ms := by
  induction ms generalizing index with
  | nil => rfl
  | cons m ms ih => rw [decodedScan, decodedScan, ih, decodedBlocks, decodedBlocks, h, h, h]

/-- The last MCU of a scan without an error is read back, its padding bits left (R152, R203). -/
theorem State.Inv.decodeMcus_of_last {s : State} {y cb cr : HalfBlock} {bytes : List Byte}
    (h : s.Inv) (hopen : s.scState = .scanActive) (hquant : s.params.quantOnEncode = false)
    (hready : s.precheckFailure true = none) (hlast : s.count + 1 = s.expected)
    (hout : (s.mcuBody y cb cr).out = s.out ++ [s.handOff bytes]) :
    ∃ w, (unstuff bytes).flatMap byteBits = s.packer.bits ++ w ∧ stuffed bytes = true ∧
      ∀ (d : State) (u : Unpacker), Follows s d → Unpacker.reads w d.unp = some u →
        DecodesCleanly d (decodedScan d d.count [(y, cb, cr)]) (State.decodeMcus 1 d) := by
  obtain ⟨-, -, hsent⟩ := s.mcuBody_last y cb cr hlast
  rw [hout] at hsent
  have herr : s.mcuErrors y cb cr = [] := errors_eq_nil ⟨_, hsent.symm⟩
  obtain ⟨w, hbits, hdecode⟩ := h.decodeMcu_of_mcu hopen hquant hready herr
  rw [herr, List.map_nil, List.append_nil] at hsent
  have hwf := ((s.mcuStart y cb cr).blocksWritten_extends.2 h.packerWf).1
  generalize (s.mcuStart y cb cr).blocksWritten.packer = p at hsent hbits hwf
  obtain rfl : bytes = p.finalize.obuf := by
    have hevent := List.append_cancel_left hsent
    simp only [State.handOff, List.cons.injEq, Event.scanbuf.injEq] at hevent
    exact hevent.1.1
  refine ⟨w ++ List.replicate ((8 - p.nbits.val) % 8) true, ?_, (Packer.finalize_wf hwf).2, fun d u hd hreads => ?_⟩
  · rw [Packer.finalize_obuf_bits, Packer.finalize_bits hwf.2, hbits, List.append_assoc]
  · rw [Unpacker.reads_append] at hreads
    obtain ⟨u', hreads, -⟩ := Option.bind_eq_some_iff.mp hreads
    rw [State.decodeMcus, State.decodeMcus, hdecode d u' hd hreads]
    exact State.afterMcu_cleanly _ (y, cb, cr) (Unpacker.reads_marker hreads)

/-- The MCUs of the rest of a scan without an error are read back, behind what the Packer held (R203). -/
theorem State.Inv.decodeMcus_of_encodeMcus {ms : List (HalfBlock × HalfBlock × HalfBlock)} {s t : State} {bytes : List Byte}
    (h : s.Inv) (hopen : s.scState = .scanActive) (hquant : s.params.quantOnEncode = false)
    (hready : s.precheckFailure true = none) (hlen : s.count.toNat + ms.length = s.expected.toNat)
    (henc : encodeMcus ms s = .next t) (hout : t.out = s.out ++ [s.handOff bytes]) :
    ∃ w, (unstuff bytes).flatMap byteBits = s.packer.bits ++ w ∧ stuffed bytes = true ∧
      ∀ (d : State) (u : Unpacker), Follows s d → Unpacker.reads w d.unp = some u →
        DecodesCleanly d (decodedScan d d.count ms) (State.decodeMcus ms.length d) := by
  induction ms generalizing s with
  | nil => exact absurd hlen (Nat.ne_of_lt (h.countBelow hopen))
  | cons m ms ih =>
    obtain ⟨y, cb, cr⟩ := m
    have hready' : s.precheckFailure (s.needsQuant false) = none := by
      rw [State.needsQuant, hquant]
      exact State.precheckFailure_false hready
    rw [encodeMcus, exec_mcu_of_scanActive y cb cr hopen, State.mcu_of_ready y cb cr hready'] at henc
    dsimp only at henc
    rw [List.length_cons] at hlen
    have hcount := h.count_succ hopen
    by_cases hlast : s.count + 1 = s.expected
    · have hnil : ms = [] := List.length_eq_zero_iff.mp (by rw [← hlast, hcount] at hlen; omega)
      subst hnil
      obtain rfl := Host.Outcome.next.inj henc
      exact h.decodeMcus_of_last hopen hquant hready hlast hout
    · obtain ⟨hstate, hpacker, hsent⟩ := s.mcuBody_open y cb cr hlast
      have hnext := h.mcuBody hopen hready' y cb cr
      have hframe := s.mcuBody_frame y cb cr
      generalize s.mcuBody y cb cr = s1 at henc hstate hpacker hsent hnext hframe
      have herr : s.mcuErrors y cb cr = [] := by
        have hgrows := (encodeMcus_grows henc).out
        rw [hsent, hout] at hgrows
        exact errors_eq_nil hgrows
      rw [herr, List.map_nil, List.append_nil] at hsent
      obtain ⟨w, hbits, hdecode⟩ := h.decodeMcu_of_mcu hopen hquant hready herr
      have hsucc : s1.count = s.count + 1 := by rw [hframe]
      have hpred : s1.pred = (s.mcuStart y cb cr).blocksWritten.pred := by rw [hframe]
      have hexpected : s1.expected = s.expected := by rw [hframe]
      have hhdr : s1.hdr = s.hdr := by rw [hframe]
      obtain ⟨hqt, hdc, hac, hcomp⟩ : SameTables s s1 := by
        rw [hframe]
        exact ⟨rfl, rfl, rfl, rfl⟩
      obtain ⟨w', hbits', hstuffed, hdecode'⟩ := ih (s := s1) hnext (hstate.trans hopen)
        (by rw [hframe]; exact hquant) (by rw [hframe]; exact hready)
        (by rw [hsucc, hcount, hexpected]; omega) henc
        (by rw [hout, hsent, State.handOff, State.handOff, hhdr])
      refine ⟨w ++ w', by rw [hbits', hpacker, hbits, List.append_assoc], hstuffed, fun d u hd hreads => ?_⟩
      rw [Unpacker.reads_append] at hreads
      obtain ⟨u1, hreads, hreads'⟩ := Option.bind_eq_some_iff.mp hreads
      have hround := hdecode d u1 hd hreads
      have hfollows : Follows s1 d.decodeMcu := by
        rw [hround]
        exact ⟨hd.comp.trans hcomp.symm, hd.qt.trans hqt.symm, hd.htDc.trans hdc.symm, hd.htAc.trans hac.symm, hpred.symm,
          (congrArg (· + 1) hd.count).trans hsucc.symm⟩
      have hrest := hdecode' d.decodeMcu u hfollows (by rw [hround]; exact hreads')
      have hfirst : DecodesCleanly d [decodedBlocks d d.count (y, cb, cr)] d.decodeMcu := by
        rw [hround]
        exact State.afterMcu_cleanly _ (y, cb, cr) (Unpacker.reads_marker hreads)
      have hnumber : d.decodeMcu.count = d.count + 1 := by
        rw [hround]
        rfl
      rw [hnumber, decodedScan_congr (s := d) fun ch => by rw [hround]; rfl] at hrest
      exact hfirst.trans hrest

/-- Settles O38: the decoder follows the encoder MCU by MCU. -/
theorem scanRoundTrip : Obligations.ScanRoundTrip := by
  unfold Obligations.ScanRoundTrip
  intro s t ms bytes h hopen hc hquant hready hlen henc hout
  have hzero : s.count.toNat = 0 := by rw [hc]; rfl
  have hempty : s.packer = Packer.reset := h.packerEmpty (.inr ⟨hopen, hc⟩)
  have hfresh : s.unp = Unpacker.reset := h.unpackerFresh hopen
  obtain ⟨w, hbits, hstuffed, hdecode⟩ :=
    h.decodeMcus_of_encodeMcus hopen hquant hready (by rw [hzero, hlen, Nat.zero_add]) henc hout
  rw [hempty, show Packer.reset.bits = [] from rfl, List.nil_append] at hbits
  have hreads : Unpacker.reads w (s.loadSegment bytes).unp = some { Unpacker.reset with ibuf := bytes, ipos := bytes.length } := by
    rw [← hbits, State.loadSegment, hfresh]
    exact Unpacker.reads_loaded hstuffed
  obtain ⟨u', co, cf, pr, n, hmarker, hloop⟩ := hdecode (s.loadSegment bytes) _ ⟨rfl, rfl, rfl, rfl, rfl, rfl⟩ hreads
  have hready' : s.precheckFailure (s.needsQuant true) = none := hready
  have hrounds : (s.loadSegment bytes).expected.toNat - (s.loadSegment bytes).count.toNat = ms.length := by
    rw [hlen, show (s.loadSegment bytes).count = s.count from rfl, hzero]
    rfl
  have hbody : s.cdataBody bytes = (State.decodeMcus ms.length (s.loadSegment bytes)).completeDec := by
    rw [State.cdataBody, ← State.loadSegment, hrounds]
  refine ⟨s.cdataBody bytes, ?_, ?_⟩
  · rw [exec_cdata_of_scanActive bytes hopen hc, State.cdata, hready']
  · have hscan : decodedScan (s.loadSegment bytes) (s.loadSegment bytes).count ms = decodedScan s 0 ms :=
      (decodedScan_congr (s := s) (d := s.loadSegment bytes) (fun _ => rfl) s.count ms).trans (congrArg (fun index => decodedScan s index ms) hc)
    have hmarker' : (s.loadSegment bytes).unp.marker = 0 := by
      rw [State.loadSegment, hfresh]
      rfl
    rw [hbody, hloop, hscan]
    exact ⟨rfl, hmarker.trans hmarker', rfl⟩

end Sys2Proof.Machine
end
